-- ==== Sys2Proof/Word.lean ====
section
/-! DEFINITION. The two word types of the machine (00_scope R3): every register but PC, and every memory cell, is a
byte; PC and bus addresses have 16 bits. BitVec arithmetic is the wrapping arithmetic of `u8` and `u16` (R10). -/

namespace Sys2Proof

/-- An 8-bit value (R3: data width). -/
abbrev Byte := BitVec 8

/-- A 16-bit bus address or program counter (R3: address width). -/
abbrev Addr := BitVec 16

end Sys2Proof
end

