-- ==== Sys2Proof/Machine/Bits.lean ====
section
/-! DEFINITION. The byte-order, extension and single-bit helpers of 00_scope R10. -/

namespace Sys2Proof

/-- `word(l, h)`: the 16-bit value `h * 256 + l` (R10). -/
def word (l h : Byte) : Addr := h ++ l

/-- `lo(w)`: bits 7 to 0 (R10). -/
def lo (w : Addr) : Byte := w.setWidth 8

/-- `hi(w)`: bits 15 to 8, the page of an address (R10, R12). -/
def hi (w : Addr) : Byte := (w >>> 8).setWidth 8

/-- `zext_16(b)` (R10). -/
def zext16 (b : Byte) : Addr := b.setWidth 16

/-- `sext_16(b)` (R10). -/
def sext16 (b : Byte) : Addr := b.signExtend 16

/-- `b` with bit `k` made `v` (bits numbered from the least significant, R8). -/
def setBit (b : Byte) (k : Nat) (v : Bool) : Byte :=
  if v then b ||| (1#8 <<< k) else b &&& ~~~(1#8 <<< k)

end Sys2Proof
end

