-- ==== Sys2Proof/Config.lean ====
section
/-! DEFINITION. The parameters of the machine (00_scope R4) other than the cartridge and the reset values, and the one
value the spec leaves OPEN without a default. The defaults are in Machine/Parameters.lean. -/

namespace Sys2Proof

/-- `OOR_POLICY` (R4, R49): what an access outside every mapped window does. -/
inductive OorPolicy where
  | fault     -- raise OutOfRangeAccess
  | degrade   -- read $00, drop the write
  deriving DecidableEq, Repr

/-- `PAGE_CROSS` (R4, R88): whether page crossings add cycles. -/
inductive PageCross where
  | none
  | standard
  deriving DecidableEq, Repr

/-- `MIRRORING` (R4, R252, R273): FourScreen is refused at load (R271). -/
inductive Mirroring where
  | horizontal
  | vertical
  deriving DecidableEq, Repr

/-- `PRG_SIZE` (R4): 16384 or 32768 bytes. -/
inductive PrgSize where
  | k16
  | k32
  deriving DecidableEq, Repr

/-- The policy parameters of R4, constant while the machine runs (R35). -/
structure Config where
  oorPolicy    : OorPolicy
  pageCross    : PageCross
  oamDmaCycles : Nat
  nmiExtraDots : Nat
  deriving DecidableEq, Repr

/-- The value of `OAM_DMA_CYCLES` in the reset state: OPEN in the spec (R4, R50, decision D9), so a constant without a
body that no proof can evaluate. DESIGN CHOICE, safe: log entry 3. -/
opaque Config.openOamDmaCycles : Nat

end Sys2Proof
end

