-- ==== Sys2Proof/Machine/Memory.lean ====
section
/-! DEFINITION. A byte store as plain data: a list of (address, byte) cells in one canonical form (addresses strictly
rising, no cell holding 0), where an unlisted address reads as 0. The reset contents of RAM, VRAM, PAL and OAM are 0
(10_state R33), so a store with nothing listed is a store right after reset (log entry 8). -/

namespace Sys2Proof.Machine

/-- A byte store of the machine: RAM, VRAM, PAL, OAM, PRG and CHR are each one of these. -/
abbrev Memory := List Host.Cell

/-- The byte at an index: the listed one, else 0. -/
def Memory.read : Memory → Nat → Byte
  | [], _ => 0#8
  | (k, v) :: m, a => if a = k then v else Memory.read m a

/-- The store with one byte replaced, canonical again: writing 0 removes the cell. -/
def Memory.write : Memory → Nat → Byte → Memory
  | [], a, v => if v = 0#8 then [] else [(a, v)]
  | (k, u) :: m, a, v =>
    if a < k then (if v = 0#8 then (k, u) :: m else (a, v) :: (k, u) :: m)
    else if a = k then (if v = 0#8 then m else (a, v) :: m)
    else (k, u) :: Memory.write m a v

/-- Cells from index `lowest` on, below `size`, strictly rising, none holding 0. -/
def Memory.wfFrom (size : Nat) : Nat → Memory → Bool
  | _, [] => true
  | lowest, (k, v) :: m => decide (lowest ≤ k) && decide (k < size) && (v != 0#8) && Memory.wfFrom size (k + 1) m

/-- The canonical form of a store of `size` bytes. -/
def Memory.wf (size : Nat) (m : Memory) : Bool := Memory.wfFrom size 0 m

/-- The canonical store that holds a list of bytes from index `k` on. -/
def Memory.ofBytesFrom : Nat → List Byte → Memory
  | _, [] => []
  | k, b :: bs => if b = 0#8 then Memory.ofBytesFrom (k + 1) bs else (k, b) :: Memory.ofBytesFrom (k + 1) bs

/-- The canonical store that holds a list of bytes from index 0 on. -/
def Memory.ofBytes (bs : List Byte) : Memory := Memory.ofBytesFrom 0 bs

end Sys2Proof.Machine
end

