-- ==== Sys2Proof/Machine/Cartridge.lean ====
section
/-! DEFINITION. The cartridge: program ROM, tile ROM and mirroring (10_state R29), the folding of a bus address into PRG
(20_memory R48), and the loader that builds a cartridge from an image or refuses it (70_reset_and_hazards R270 to R273).
The cartridge is configuration (R29, R35): State carries it and no step changes it (log entry 1). -/

namespace Sys2Proof.Machine

/-- The parameters `PRG`, `PRG_SIZE`, `CHR` and `MIRRORING` of R4. -/
structure Cartridge where
  prgSize   : PrgSize
  prg       : Memory
  chr       : Memory
  mirroring : Mirroring
  deriving DecidableEq, Repr

/-- `PRG_SIZE` in bytes (R4). -/
def prgBytes : PrgSize → Nat
  | .k16 => 16384
  | .k32 => 32768

/-- The PRG offset of a bus address in $8000-$FFFF (R48): a 16KB image is mirrored into the upper 16KB. -/
def prgOffset (size : PrgSize) (a : Addr) : Nat := (a.toNat - 0x8000) % prgBytes size

/-- `PrgRead(a)` (R48). -/
def prgRead (c : Cartridge) (a : Addr) : Byte := c.prg.read (prgOffset c.prgSize a)

/-- The cartridge a machine is built around before any image is loaded: a 16KB image of zero bytes, CHR zero,
Horizontal, which are the conventions of 95_test_vectors. DESIGN CHOICE, unsafe: log entry 2. -/
def blankCartridge : Cartridge where
  prgSize := .k16
  prg := []
  chr := []
  mirroring := .horizontal

/-- Why a load is refused. The spec has the one name `FormatError` (R205, R271); the causes are those R271 lists, and
which one is reported when several hold is the model's choice (log entry 9). Safe: no machine is built. -/
inductive FormatError where
  | badMagic             -- bytes 0 to 3 are not "NES" $1A
  | unsupportedVersion   -- bits 2-3 of byte 7 are not 0
  | unsupportedMapper    -- the mapper number is not 0
  | prgUnits             -- byte 4 is not 1 or 2
  | chrUnits             -- byte 5 is not 1
  | fourScreen           -- bit 3 of byte 6 is set
  | truncated            -- the image is shorter than its header says
  deriving DecidableEq, Repr

/-- Byte `k` of the image (0 past its end). -/
def imageByte (image : List Byte) (k : Nat) : Byte := image.getD k 0#8

/-- The magic bytes "NES" $1A (R270). -/
def hasMagic (image : List Byte) : Bool :=
  imageByte image 0 == 0x4E#8 && imageByte image 1 == 0x45#8 && imageByte image 2 == 0x53#8 && imageByte image 3 == 0x1A#8

/-- The mapper number: `(h[7] & 0xF0) | (h[6] >> 4)` (R271). -/
def mapperNumber (image : List Byte) : Byte := (imageByte image 7 &&& 0xF0#8) ||| (imageByte image 6 >>> 4)

/-- `PRG_SIZE` from header byte 4 (R270, R271): one or two units of 16KB. -/
def headerPrgSize (image : List Byte) : Option PrgSize :=
  if imageByte image 4 = 1#8 then some .k16 else if imageByte image 4 = 2#8 then some .k32 else none

/-- `prg_start` (R272): after the 16-byte header and the 512-byte trainer where bit 2 of byte 6 is set. -/
def prgStart (image : List Byte) : Nat := 16 + (if (imageByte image 6).getLsbD 2 then 512 else 0)

/-- MIRRORING of an accepted image (R273): bit 0 of byte 6. -/
def headerMirroring (image : List Byte) : Mirroring :=
  if (imageByte image 6).getLsbD 0 then .vertical else .horizontal

/-- The loader: the refusals of R271, then the extraction of R272 and R273. -/
def loadCartridge (image : List Byte) : Except FormatError Cartridge :=
  if !hasMagic image then .error .badMagic
  else if (imageByte image 7 >>> 2) &&& 3#8 ≠ 0#8 then .error .unsupportedVersion
  else if mapperNumber image ≠ 0#8 then .error .unsupportedMapper
  else if (imageByte image 6).getLsbD 3 then .error .fourScreen
  else if imageByte image 5 ≠ 1#8 then .error .chrUnits
  else match headerPrgSize image with
    | none => .error .prgUnits
    | some size =>
      let chrStart := prgStart image + prgBytes size
      if image.length < chrStart + 8192 then .error .truncated
      else .ok {
        prgSize := size
        prg := Memory.ofBytes ((image.drop (prgStart image)).take (prgBytes size))
        chr := Memory.ofBytes ((image.drop chrStart).take 8192)
        mirroring := headerMirroring image }

end Sys2Proof.Machine
end

