-- ==== Sys2Proof/Machine/Parameters.lean ====
section
/-! DEFINITION. The fixed numbers of the hardware (00_scope R3), the spec's defaults of the policy parameters (R4) and
the spec's default reset values of the CPU registers (10_state R33, decision D13, log entry 5). -/

namespace Sys2Proof.Machine

/-- `PPU_RATIO`: dots per CPU cycle (R3). -/
def ppuRatio : Nat := 3
/-- `DOTS_PER_LINE` (R3). -/
def dotsPerLine : Nat := 341
/-- `LINES_PER_FRAME` (R3). -/
def linesPerFrame : Nat := 262
/-- `VBLANK_LINE` (R3). -/
def vblankLine : Nat := 241

/-- RAM size in bytes (R3, R28). -/
def ramSize : Nat := 2048
/-- VRAM size in bytes (R3, R32). -/
def vramSize : Nat := 2048
/-- Palette table size in bytes (R3, R32). -/
def palSize : Nat := 32
/-- OAM size in bytes (R3, R32). -/
def oamSize : Nat := 256
/-- CHR size in bytes (R4). -/
def chrSize : Nat := 8192

/-- The NMI vector (R3, R52). -/
def nmiVector : Addr := 0xFFFA#16
/-- The reset vector (R3, R52). -/
def resetVector : Addr := 0xFFFC#16
/-- The BRK vector (R3, R52). -/
def brkVector : Addr := 0xFFFE#16

/-- Reset value of A, X and Y (R33). -/
def resetAXY : Byte := 0x00#8
/-- Reset value of SP (R33). -/
def resetSP : Byte := 0xFD#8
/-- Reset value of P: I = 1, U = 1, all others 0 (R22, R33). -/
def resetP : Byte := 0x24#8

/-- The policy parameters at the spec's defaults (R4: D3, D8, D11), `OAM_DMA_CYCLES` left open (D9): log entries 3, 4. -/
def defaultConfig : Config where
  oorPolicy := .fault
  pageCross := .none
  oamDmaCycles := Config.openOamDmaCycles
  nmiExtraDots := 2

end Sys2Proof.Machine
end

