-- ==== Sys2Proof/Machine/State.lean ====
section
/-! DEFINITION. The state of the machine as plain data: every piece of state of 10_state (R13 to R34), the cartridge
and policy parameters the host's step has no argument for (R29, R35, log entry 1), the reasons a step stops, and the
state after reset (R33, 70_reset_and_hazards R262). -/

namespace Sys2Proof.Machine

/-- The direction of a bus access (R201). -/
inductive Dir where
  | read
  | write
  deriving DecidableEq, Repr

/-- Which read-only memory a write aimed at (R201): PRG with a CPU address, CHR with a PPU address. -/
inductive RomSpace where
  | prg
  | chr
  deriving DecidableEq, Repr

/-- The closed list of faults (60_exceptions R201). A fault stops the machine for good (R203). -/
inductive Fault where
  /-- Raised by the decode of any step: the byte fetched as opcode at `addr` is one of the 105 of R92. Safe (D2). -/
  | illegalOpcode (opcode : Byte) (addr : Addr)
  /-- Raised by any bus access outside all mapped windows when OOR_POLICY is fault (R41, R49). Safe (D3). -/
  | outOfRangeAccess (dir : Dir) (addr : Addr)
  /-- Raised by a read of PPU port 0, 1, 3, 5 or 6 or a write to port 2 (R253). Safe (D4). -/
  | registerAccessViolation (dir : Dir) (port : BitVec 3)
  /-- Raised by a write to $8000-$FFFF (R48) or through port 7 to PPU $0000-$1FFF (R251; `addr` is then the 14-bit PPU
  address). Safe (D5). -/
  | romWrite (space : RomSpace) (addr : Addr)
  deriving DecidableEq, Repr

/-- Why an instruction has no meaning. No arm of exec answers with it: every instruction is modelled. -/
inductive Refusal where
  /-- Raised by an arm of exec that has no meaning yet (none has it). Safe. -/
  | notModelled (mnemonic : String)
  deriving DecidableEq, Repr

/-- The PPU: its registers (10_state R31), its memories and its timing state (R32). -/
structure Ppu where
  ctrl       : Byte          -- bit 7 NMI enable, bit 2 VRAM increment
  mask       : Byte
  status     : Byte          -- bit 7 VBlank, bit 6 sprite-0 hit
  oamAddr    : Byte
  scrollX    : Byte
  scrollY    : Byte
  vramAddr   : BitVec 14
  w          : Bool          -- the shared write toggle: false means the next write is the first of a pair
  readBuf    : Byte
  vram       : Memory
  pal        : Memory
  oam        : Memory
  dot        : Nat
  scanline   : Nat
  nmiPending : Bool
  deriving DecidableEq, Repr

/-- The whole machine. -/
structure State where
  a      : Byte
  x      : Byte
  y      : Byte
  sp     : Byte
  pc     : Addr
  p      : Byte
  cycles : Nat
  ram    : Memory
  ppu    : Ppu
  cart   : Cartridge
  cfg    : Config
  fault  : Option Fault
  deriving DecidableEq, Repr

/-- The PPU right after reset (R33): every register, memory and counter 0, no interrupt pending. -/
def Ppu.reset : Ppu where
  ctrl := 0#8
  mask := 0#8
  status := 0#8
  oamAddr := 0#8
  scrollX := 0#8
  scrollY := 0#8
  vramAddr := 0#14
  w := false
  readBuf := 0#8
  vram := []
  pal := []
  oam := []
  dot := 0
  scanline := 0
  nmiPending := false

/-- Reset for any choice of the parameter RESET (R4, R262): every piece of state at its value in `r`, PC loaded from the
reset vector through PRG, no fault recorded (R34). -/
def State.resetFrom (r : State) : State :=
  { r with
    pc := word (prgRead r.cart resetVector) (prgRead r.cart (resetVector + 1#16))
    fault := none }

/-- Reset with the spec's default RESET values (R33) around a cartridge and policy parameters (R260, R262). -/
def State.resetWith (cart : Cartridge) (cfg : Config) : State :=
  State.resetFrom
    { a := resetAXY, x := resetAXY, y := resetAXY, sp := resetSP, pc := 0#16, p := resetP, cycles := 0, ram := []
      ppu := Ppu.reset, cart := cart, cfg := cfg, fault := none }

/-- The machine right after reset, before any image is loaded: log entries 2 to 5. -/
def State.reset : State := State.resetWith blankCartridge defaultConfig

end Sys2Proof.Machine
end

