-- ==== Sys2Proof/Machine/Flags.lean ====
section
/-! DEFINITION. The status register (10_state R18 to R27) and every flag computation of the spec (41_arithmetic_logic
R115 to R118). P is a byte with named bits, so that bits 4 and 5 survive every write of another flag (R23). -/

namespace Sys2Proof.Machine

/-- The eight flags of P (R18). -/
inductive Flag where
  | carry | zero | interruptDisable | decimal | brk | unused | overflow | negative
  deriving DecidableEq, Repr

/-- The bit of P a flag is (R18). -/
def flagBit : Flag → Nat
  | .carry => 0
  | .zero => 1
  | .interruptDisable => 2
  | .decimal => 3
  | .brk => 4
  | .unused => 5
  | .overflow => 6
  | .negative => 7

/-- A flag of a status byte. -/
def flagOf (f : Flag) (p : Byte) : Bool := p.getLsbD (flagBit f)

/-- A flag of the machine. -/
def State.flag (f : Flag) (s : State) : Bool := flagOf f s.p

/-- Write one flag; the other seven bits of P are unchanged. -/
def State.setFlag (f : Flag) (v : Bool) (s : State) : State := { s with p := setBit s.p (flagBit f) v }

/-- `SetZN(v)` (R27). -/
def State.setZN (v : Byte) (s : State) : State := (s.setFlag .zero (v == 0#8)).setFlag .negative v.msb

/-- The carry as a number (the bit `c` of R115). -/
def bitNat (c : Bool) : Nat := if c then 1 else 0

/-- The result of `AddWithCarry`: the low 8 bits, the carry out and the overflow (R115). -/
structure Sum8 where
  result   : Byte
  carry    : Bool
  overflow : Bool
  deriving DecidableEq, Repr

/-- `AddWithCarry(a, m, c)` (R115): the exact 9-bit sum, narrowed; the Decimal flag is no input. -/
def addWithCarry (a m : Byte) (c : Bool) : Sum8 :=
  let sum := a.toNat + m.toNat + bitNat c
  let r := BitVec.ofNat 8 sum
  { result := r
    carry := decide (sum > 0xFF)
    overflow := (((m ^^^ r) &&& (r ^^^ a)) &&& 0x80#8) != 0#8 }

/-- The effect of ADC and SBC on A and the flags (R119, R120), `m` being what is fed to the adder. -/
def State.addToA (m : Byte) (s : State) : State :=
  let sum := addWithCarry s.a m (s.flag .carry)
  (({ s with a := sum.result }.setFlag .carry sum.carry).setFlag .overflow sum.overflow).setZN sum.result

/-- `Compare(reg, m)` (R117): Z, C and N; V and the register are not affected. -/
def State.compare (reg m : Byte) (s : State) : State :=
  ((s.setFlag .zero (reg == m)).setFlag .carry (decide (m.toNat ≤ reg.toNat))).setFlag .negative (reg - m).msb

/-- The flags of BIT (R127). -/
def State.bitTest (m : Byte) (s : State) : State :=
  ((s.setFlag .zero ((s.a &&& m) == 0#8)).setFlag .negative (m.getLsbD 7)).setFlag .overflow (m.getLsbD 6)

/-- What PHP and BRK push: bits 4 and 5 set (R23, R167, R185). -/
def statusWithBreak (p : Byte) : Byte := p ||| 0x30#8

/-- Bit 4 cleared and bit 5 set: what NMI service pushes and what PLP and RTI install (R23, R168, R186, R210). -/
def statusWithoutBreak (p : Byte) : Byte := (p &&& 0xEF#8) ||| 0x20#8

end Sys2Proof.Machine
end

