-- ==== Sys2Proof/Machine/Result.lean ====
section
/-! DEFINITION. The result of part of a step (60_exceptions R200): a value and the state so far, or a fault and the state
the step had reached when it was raised. Statements of the spec's pseudocode are chained by `Res.bind`, so they run in
the order they are written (00_scope R11) and nothing runs after a fault. -/

namespace Sys2Proof.Machine

/-- A value with the next state, or a fault with the state it was raised in. -/
inductive Res (α : Type) where
  | ok (v : α) (s : State)
  | fault (f : Fault) (s : State)
  deriving DecidableEq, Repr

/-- The outcome the host reads of a step or an instruction (Host/Core.lean). -/
abbrev StepOutcome := Host.Outcome State Fault Refusal

/-- Run `k` after a result, unless that is a fault. -/
def Res.bind {α β : Type} (r : Res α) (k : α → State → Res β) : Res β :=
  match r with
  | .ok v s => k v s
  | .fault f s => .fault f s

/-- What the host sees: the fault alone, or the next state. -/
def Res.outcome {α : Type} : Res α → StepOutcome
  | .ok _ s => .next s
  | .fault f _ => .fault f

/-- What the driver may read afterwards: the state, with the fault recorded where there was one (R200, R202). -/
def Res.state {α : Type} : Res α → State
  | .ok _ s => s
  | .fault f s => { s with fault := some f }

end Sys2Proof.Machine
end

