-- ==== Sys2Proof/Machine/Ppu.lean ====
section
/-! DEFINITION. The PPU as far as a CPU program can observe it: the timing state machine (60_exceptions R230 to R234) and
the eight register ports (R240 to R254). -/

namespace Sys2Proof.Machine

/-! ## The timing state machine -/

/-- `VBlankStart` (R231): VBlank set, sprite-0 hit cleared, the interrupt raised if the control register enables it. -/
def vblankStart (p : Ppu) : Ppu :=
  { p with
    status := setBit (setBit p.status 7 true) 6 false
    nmiPending := p.nmiPending || p.ctrl.getLsbD 7 }

/-- `FrameWrap` (R232). -/
def frameWrap (p : Ppu) : Ppu :=
  { p with
    scanline := 0
    status := setBit (setBit p.status 7 false) 6 false
    nmiPending := false }

/-- What entering a scanline does (R230): the events happen on the one dot at which `scanline` takes the value. -/
def enterScanline (p : Ppu) : Ppu :=
  if p.scanline = vblankLine then vblankStart p
  else if p.scanline = linesPerFrame then frameWrap p
  else p

/-- `PpuDot` (R230). -/
def ppuDot (p : Ppu) : Ppu :=
  if p.dot + 1 = dotsPerLine then enterScanline { p with dot := 0, scanline := p.scanline + 1 }
  else { p with dot := p.dot + 1 }

/-- `PpuAdvance(n)` (R230): the per-dot step `n` times. -/
def ppuAdvance : Nat → Ppu → Ppu
  | 0, p => p
  | n + 1, p => ppuAdvance n (ppuDot p)

/-- `PpuAdvance(n)` on the machine: it touches nothing but the PPU (R234). -/
def State.advancePpu (n : Nat) (s : State) : State := { s with ppu := ppuAdvance n s.ppu }

/-! ## The registers behind the ports -/

/-- Write to port 0, control (R241): the NMI is raised when the enable bit goes from 0 to 1 while VBlank is set. -/
def writeCtrl (v : Byte) (p : Ppu) : Ppu :=
  { p with
    ctrl := v
    nmiPending := p.nmiPending || (!p.ctrl.getLsbD 7 && v.getLsbD 7 && p.status.getLsbD 7) }

/-- Write to port 1, mask (R242). -/
def writeMask (v : Byte) (p : Ppu) : Ppu := { p with mask := v }

/-- What a read of port 2, status, leaves behind (R243): VBlank and the write toggle cleared. -/
def afterStatusRead (p : Ppu) : Ppu := { p with status := setBit p.status 7 false, w := false }

/-- Write to port 3, OAM address (R244). -/
def writeOamAddr (v : Byte) (p : Ppu) : Ppu := { p with oamAddr := v }

/-- What port 4, OAM data, reads as (R245). -/
def readOamData (p : Ppu) : Byte := p.oam.read p.oamAddr.toNat

/-- Write to port 4, OAM data (R245). -/
def writeOamData (v : Byte) (p : Ppu) : Ppu :=
  { p with oam := p.oam.write p.oamAddr.toNat v, oamAddr := p.oamAddr + 1#8 }

/-- Write to port 5, scroll (R246). -/
def writeScroll (v : Byte) (p : Ppu) : Ppu :=
  if p.w then { p with scrollY := v, w := false } else { p with scrollX := v, w := true }

/-- Write to port 6, VRAM address (R247): the high byte first, kept to 14 bits. -/
def writeVramAddr (v : Byte) (p : Ppu) : Ppu :=
  if p.w then { p with vramAddr := (p.vramAddr &&& 0x3F00#14) ||| v.setWidth 14, w := false }
  else { p with vramAddr := ((v &&& 0x3F#8).setWidth 14 <<< 8) ||| (p.vramAddr &&& 0x00FF#14), w := true }

/-- The increment after every access to port 7 (R249), modulo $4000. -/
def incVramAddr (p : Ppu) : Ppu :=
  { p with vramAddr := p.vramAddr + (if p.ctrl.getLsbD 2 then 32#14 else 1#14) }

/-- `NtIndex(a)` (R252): the nametable folding, for `a` in $2000-$3EFF. -/
def ntIndex (m : Mirroring) (a : BitVec 14) : Nat :=
  let v := (a &&& 0x2FFF#14).toNat - 0x2000
  let table := v / 0x400
  let phys := match m with
    | .horizontal => table / 2
    | .vertical => table % 2
  phys * 0x400 + v % 0x400

/-- The palette index of a PPU address in $3F00-$3FFF (R248). -/
def palIndex (a : BitVec 14) : Nat := (a.toNat - 0x3F00) % 32

/-- The byte behind a PPU address (R248). -/
def ppuSpaceRead (c : Cartridge) (p : Ppu) (a : BitVec 14) : Byte :=
  if a.toNat ≤ 0x1FFF then c.chr.read a.toNat
  else if a.toNat ≤ 0x3EFF then p.vram.read (ntIndex c.mirroring a)
  else p.pal.read (palIndex a)

/-- What port 7 reads as (R250): the buffer, or the palette byte itself. -/
def dataReadValue (c : Cartridge) (p : Ppu) : Byte :=
  if p.vramAddr.toNat ≤ 0x3EFF then p.readBuf else ppuSpaceRead c p p.vramAddr

/-- What a read of port 7 leaves behind (R249, R250): a read outside the palette refills the buffer. -/
def afterDataRead (c : Cartridge) (p : Ppu) : Ppu :=
  if p.vramAddr.toNat ≤ 0x3EFF then { incVramAddr p with readBuf := ppuSpaceRead c p p.vramAddr }
  else incVramAddr p

/-- A write through port 7 to VRAM or the palette (R251); CHR is refused before this (`ppuPortWrite`). -/
def writeVramData (c : Cartridge) (v : Byte) (p : Ppu) : Ppu :=
  if p.vramAddr.toNat ≤ 0x3EFF then
    { incVramAddr p with vram := p.vram.write (ntIndex c.mirroring p.vramAddr) v }
  else { incVramAddr p with pal := p.pal.write (palIndex p.vramAddr) v }

/-! ## The ports -/

/-- The PPU port of a bus address in $2000-$3FFF (20_memory R47). -/
def portOf (a : Addr) : BitVec 3 := a.setWidth 3

/-- `PpuRegRead(n)` (R240, R243, R245, R250, R253). -/
def ppuPortRead (port : BitVec 3) (s : State) : Res Byte :=
  if port = 2#3 then .ok s.ppu.status { s with ppu := afterStatusRead s.ppu }
  else if port = 4#3 then .ok (readOamData s.ppu) s
  else if port = 7#3 then .ok (dataReadValue s.cart s.ppu) { s with ppu := afterDataRead s.cart s.ppu }
  else .fault (.registerAccessViolation .read port) s

/-- `PpuRegWrite(n, v)` (R240 to R247, R251, R253). A write to CHR raises its fault after the increment (R251). -/
def ppuPortWrite (port : BitVec 3) (v : Byte) (s : State) : Res Unit :=
  if port = 0#3 then .ok () { s with ppu := writeCtrl v s.ppu }
  else if port = 1#3 then .ok () { s with ppu := writeMask v s.ppu }
  else if port = 2#3 then .fault (.registerAccessViolation .write port) s
  else if port = 3#3 then .ok () { s with ppu := writeOamAddr v s.ppu }
  else if port = 4#3 then .ok () { s with ppu := writeOamData v s.ppu }
  else if port = 5#3 then .ok () { s with ppu := writeScroll v s.ppu }
  else if port = 6#3 then .ok () { s with ppu := writeVramAddr v s.ppu }
  else if s.ppu.vramAddr.toNat ≤ 0x1FFF then
    .fault (.romWrite .chr (s.ppu.vramAddr.setWidth 16)) { s with ppu := incVramAddr s.ppu }
  else .ok () { s with ppu := writeVramData s.cart v s.ppu }

end Sys2Proof.Machine
end

