-- ==== Sys2Proof/Machine/Ops.lean ====
section
/-! DEFINITION. The named operations over registers and memory: the register writes, the bus (20_memory R44 to R50), the
stack (R55 to R58), the vectors (R52), and taking an interrupt or software trap and returning from one (60_exceptions
R210, R216, R217; 44_stack_flags_system R185, R186). -/

namespace Sys2Proof.Machine

/-! ## Registers -/

/-- `A <- v`. -/
def State.setA (v : Byte) (s : State) : State := { s with a := v }
/-- `X <- v`. -/
def State.setX (v : Byte) (s : State) : State := { s with x := v }
/-- `Y <- v`. -/
def State.setY (v : Byte) (s : State) : State := { s with y := v }
/-- `SP <- v`. -/
def State.setSP (v : Byte) (s : State) : State := { s with sp := v }
/-- `P <- v`, all eight bits. -/
def State.setP (v : Byte) (s : State) : State := { s with p := v }
/-- `PC <- w`. -/
def State.setPC (w : Addr) (s : State) : State := { s with pc := w }
/-- `cycles <- cycles + n` (10_state R19). -/
def State.addCycles (n : Nat) (s : State) : State := { s with cycles := s.cycles + n }
/-- `RAM[k] <- v`. -/
def State.writeRam (k : Nat) (v : Byte) (s : State) : State := { s with ram := s.ram.write k v }

/-! ## The bus -/

/-- The RAM index of a bus address in $0000-$1FFF (R46). -/
def ramIndex (a : Addr) : Nat := a.toNat % 0x800

/-- `OutOfRange(read, a)` (R49). -/
def outOfRangeRead (a : Addr) (s : State) : Res Byte :=
  match s.cfg.oorPolicy with
  | .fault => .fault (.outOfRangeAccess .read a) s
  | .degrade => .ok 0#8 s

/-- `OutOfRange(write, a, v)` (R49). -/
def outOfRangeWrite (a : Addr) (s : State) : Res Unit :=
  match s.cfg.oorPolicy with
  | .fault => .fault (.outOfRangeAccess .write a) s
  | .degrade => .ok () s

/-- `Rd(a)` (R44): one byte read through the bus, with its side effects and faults. -/
def busRead (a : Addr) (s : State) : Res Byte :=
  if a.toNat ≤ 0x1FFF then .ok (s.ram.read (ramIndex a)) s
  else if a.toNat ≤ 0x3FFF then ppuPortRead (portOf a) s
  else if 0x8000 ≤ a.toNat then .ok (prgRead s.cart a) s
  else outOfRangeRead a s

/-- The copy loop of an OAM-DMA (R50), over the indexes still to be copied. -/
def oamCopy (base : Addr) : List Nat → State → Res Unit
  | [], s => .ok () s
  | i :: is, s =>
    (busRead (base + BitVec.ofNat 16 i) s).bind fun b s =>
      oamCopy base is
        { s with ppu := { s.ppu with oam := s.ppu.oam.write (s.ppu.oamAddr + BitVec.ofNat 8 i).toNat b } }

/-- `OamDma(v)` (R50): 256 bus reads from page `v`, in order, into OAM from `oam_addr` on; then the open cycle cost. -/
def oamDma (v : Byte) (s : State) : Res Unit :=
  (oamCopy (word 0#8 v) (List.range 256) s).bind fun _ s => .ok () (s.addCycles s.cfg.oamDmaCycles)

/-- `Wr(a, v)` (R45): one byte written through the bus. -/
def busWrite (a : Addr) (v : Byte) (s : State) : Res Unit :=
  if a.toNat ≤ 0x1FFF then .ok () (s.writeRam (ramIndex a) v)
  else if a.toNat ≤ 0x3FFF then ppuPortWrite (portOf a) v s
  else if a = 0x4014#16 then oamDma v s
  else if 0x8000 ≤ a.toNat then .fault (.romWrite .prg a) s
  else outOfRangeWrite a s

/-- `MemRead(a, 2)` (R52): a vector, low byte first. -/
def readVector (a : Addr) (s : State) : Res Addr :=
  (busRead a s).bind fun l s => (busRead (a + 1#16) s).bind fun h s => .ok (word l h) s

/-! ## The stack -/

/-- The bus address SP denotes (10_state R16): `0x0100 + SP`. -/
def stackAddr (sp : Byte) : Addr := word sp 1#8

/-- `Push8(v)` (R55): write, then decrement. -/
def push8 (v : Byte) (s : State) : Res Unit :=
  (busWrite (stackAddr s.sp) v s).bind fun _ s => .ok () (s.setSP (s.sp - 1#8))

/-- `Pull8()` (R56): increment, then read. -/
def pull8 (s : State) : Res Byte := busRead (stackAddr (s.sp + 1#8)) (s.setSP (s.sp + 1#8))

/-- `Push16(w)` (R57): the high byte, then the low byte. -/
def push16 (w : Addr) (s : State) : Res Unit := (push8 (hi w) s).bind fun _ s => push8 (lo w) s

/-- `Pull16()` (R58): the low byte, then the high byte. -/
def pull16 (s : State) : Res Addr := (pull8 s).bind fun l s => (pull8 s).bind fun h s => .ok (word l h) s

/-! ## Taking an interrupt and returning -/

/-- The one entry sequence of the machine (R216): push the return address and a status byte, set I, advance the PPU by
`dots` (NMI service only), load PC from the vector. -/
def takeInterrupt (ret : Addr) (status : Byte) (vector : Addr) (dots : Nat) (s : State) : Res Unit :=
  (push16 ret s).bind fun _ s =>
  (push8 status s).bind fun _ s =>
  (readVector vector ((s.setFlag .interruptDisable true).advancePpu dots)).bind fun w s => .ok () (s.setPC w)

/-- `NmiService` (R210): the pending flag is cleared, the interrupted PC and P with Break cleared are pushed, the PPU
advances by `NMI_EXTRA_DOTS`, PC comes from $FFFA; `cycles` is not changed. -/
def nmiService (s : State) : Res Unit :=
  takeInterrupt s.pc (statusWithoutBreak s.p) nmiVector s.cfg.nmiExtraDots
    { s with ppu := { s.ppu with nmiPending := false } }

/-- The software trap BRK (R185, R206): PC is the address after the opcode; the address pushed skips one more byte. -/
def softwareTrap (s : State) : Res Unit :=
  takeInterrupt (s.pc + 1#16) (statusWithBreak s.p) brkVector 0 s

/-- The return from NMI or BRK (R186, R217): P pulled and masked, then PC pulled, nothing added. -/
def returnFromInterrupt (s : State) : Res Unit :=
  (pull8 s).bind fun b s => (pull16 (s.setP (statusWithoutBreak b))).bind fun w s => .ok () (s.setPC w)

end Sys2Proof.Machine
end

