-- ==== Sys2Proof/Syntax/Modes.lean ====
section
/-! DEFINITION. The thirteen addressing modes of 30_encoding R74, grouped by what an instruction may do with them
(R97), and the 56 mnemonics with their operands: the part of the descriptor of R71 that decides what an instruction
does. Instr (Syntax.lean) has one constructor per row of the opcode table; `Op` forgets which row it was. -/

namespace Sys2Proof

/-- The eight modes that yield an effective address for data (R76 to R81, R84, R85), with their operand bytes. -/
inductive MemOperand where
  | zp  (a : Byte)   -- ZeroPage
  | zpx (a : Byte)   -- ZeroPageX
  | zpy (a : Byte)   -- ZeroPageY
  | abs (w : Addr)   -- Absolute
  | abx (w : Addr)   -- AbsoluteX
  | aby (w : Addr)   -- AbsoluteY
  | izx (a : Byte)   -- IndexedIndirect, "(zp,X)"
  | izy (a : Byte)   -- IndirectIndexed, "(zp),Y"
  deriving DecidableEq, Repr

/-- What a reading instruction reads: the inline byte of Immediate mode (R75) or a byte of memory. -/
inductive Source where
  | imm (v : Byte)
  | mem (m : MemOperand)
  deriving DecidableEq, Repr

/-- What a shift or rotate works on (R135): register A (Accumulator mode) or a byte of memory. -/
inductive Target where
  | acc
  | mem (m : MemOperand)
  deriving DecidableEq, Repr

/-- The two operands of JMP (R156): Absolute or Indirect. -/
inductive JumpOperand where
  | abs (w : Addr)
  | ind (w : Addr)
  deriving DecidableEq, Repr

/-- The 56 mnemonics with their operands, and the opcode bytes that have no descriptor (R71, R92, R97). -/
inductive Op where
  | lda (src : Source) | ldx (src : Source) | ldy (src : Source)
  | sta (m : MemOperand) | stx (m : MemOperand) | sty (m : MemOperand)
  | tax | tay | txa | tya | tsx | txs
  | adc (src : Source) | sbc (src : Source)
  | and (src : Source) | ora (src : Source) | eor (src : Source)
  | cmp (src : Source) | cpx (src : Source) | cpy (src : Source)
  | bit (m : MemOperand)
  | inc (m : MemOperand) | dec (m : MemOperand)
  | inx | iny | dex | dey
  | asl (t : Target) | lsr (t : Target) | rol (t : Target) | ror (t : Target)
  | bcc (off : Byte) | bcs (off : Byte) | beq (off : Byte) | bne (off : Byte)
  | bmi (off : Byte) | bpl (off : Byte) | bvc (off : Byte) | bvs (off : Byte)
  | jmp (j : JumpOperand) | jsr (w : Addr) | rts
  | pha | pla | php | plp
  | clc | sec | cli | sei | cld | sed | clv
  | nop | brk | rti
  | illegal (opcode : Byte)
  deriving DecidableEq, Repr

end Sys2Proof
end

