-- ==== Sys2Proof/Machine/Operands.lean ====
section
/-! DEFINITION. The operand forms: effective addresses (30_encoding R76 to R85), the page-cross cycle (R88), and what
the four shapes of data access do: read an operand, store, read-modify-write, branch (R86, 42_shift_rotate R135,
43_control_flow R146). The resolver reads X or Y and page-zero pointers and writes nothing (R74); PC has already been
moved past the operand bytes when it runs (log entry 6). -/

namespace Sys2Proof.Machine

/-- A byte of page zero, wrapping inside it: `Rd(zext_16(z))` is this byte of RAM and has no side effect (R44, log
entry 7). -/
def zeroPageByte (z : Byte) (s : State) : Byte := s.ram.read z.toNat

/-- The little-endian word at a page-zero pointer; its second byte is taken from `u8(z + 1)` (R84, R85). -/
def zeroPagePointer (z : Byte) (s : State) : Addr := word (zeroPageByte z s) (zeroPageByte (z + 1#8) s)

/-- The address before indexing (the `base` of R80, R81, R85, R88); the effective address itself where R88 names none. -/
def baseAddress (m : MemOperand) (s : State) : Addr :=
  match m with
  | .zp a => zext16 a
  | .zpx a => zext16 (a + s.x)
  | .zpy a => zext16 (a + s.y)
  | .abs w => w
  | .abx w => w
  | .aby w => w
  | .izx a => zeroPagePointer (a + s.x) s
  | .izy a => zeroPagePointer a s

/-- `EA(mode)` (R76 to R85). -/
def effectiveAddress (m : MemOperand) (s : State) : Addr :=
  match m with
  | .abx _ => baseAddress m s + zext16 s.x
  | .aby _ => baseAddress m s + zext16 s.y
  | .izy _ => baseAddress m s + zext16 s.y
  | .zp _ | .zpx _ | .zpy _ | .abs _ | .izx _ => baseAddress m s

/-- The page-cross cycle (R88): 1 when `PAGE_CROSS` is standard and the two addresses lie in different pages. -/
def pageCrossCycles (base ea : Addr) (s : State) : Nat :=
  match s.cfg.pageCross with
  | .none => 0
  | .standard => if hi base = hi ea then 0 else 1

/-- The operand of a reading instruction (R86), with the page-cross cycle of R88 (a). When in the step the cycle is added
the spec does not say: here after resolution and before the data read, so a read that faults leaves it in the cycles of
the faulted state. DESIGN CHOICE: log entry 15. -/
def readOperand (src : Source) (s : State) : Res Byte :=
  match src with
  | .imm v => .ok v s
  | .mem m =>
    busRead (effectiveAddress m s) (s.addCycles (pageCrossCycles (baseAddress m s) (effectiveAddress m s) s))

/-- `Wr(EA(mode), v)` (R86): stores never add a page-cross cycle (R88). -/
def storeOperand (v : Byte) (m : MemOperand) (s : State) : Res Unit := busWrite (effectiveAddress m s) v s

/-- Read, compute, write back to the same address, set Z and N (R86, R128, R129): one resolution, no carry involved. -/
def modifyMemory (f : Byte → Byte) (m : MemOperand) (s : State) : Res Unit :=
  let ea := effectiveAddress m s
  (busRead ea s).bind fun v s =>
  (busWrite ea (f v) s).bind fun _ s => .ok () (s.setZN (f v))

/-- What a shift maps a byte and the carry to: the result and the bit shifted out (R135). -/
structure Shifted where
  result : Byte
  carry  : Bool
  deriving DecidableEq, Repr

/-- `ShiftOperand(mode, f)` (R135), `f` one of the four shifts. -/
def shiftOperand (f : Byte → Bool → Shifted) (t : Target) (s : State) : Res Unit :=
  match t with
  | .acc =>
    let r := f s.a (s.flag .carry)
    .ok () (((s.setA r.result).setFlag .carry r.carry).setZN r.result)
  | .mem m =>
    let ea := effectiveAddress m s
    (busRead ea s).bind fun v s =>
    let r := f v (s.flag .carry)
    (busWrite ea r.result s).bind fun _ s => .ok () ((s.setFlag .carry r.carry).setZN r.result)

/-- The target of a branch (R82): PC is the address of the next instruction. -/
def branchTarget (off : Byte) (s : State) : Addr := s.pc + sext16 off

/-- A conditional branch after its offset has been fetched (R146, R147, R88 (b)). -/
def branchIf (cond : Bool) (off : Byte) (s : State) : Res Unit :=
  if cond then
    .ok () ((s.addCycles (1 + pageCrossCycles s.pc (branchTarget off s) s)).setPC (branchTarget off s))
  else .ok () s

/-- `EA(Indirect)` (R83): the high byte's address stays in the pointer's page. -/
def indirectTarget (ptr : Addr) (s : State) : Res Addr :=
  (busRead ptr s).bind fun l s =>
  (busRead (word (lo ptr + 1#8) (hi ptr)) s).bind fun h s => .ok (word l h) s

end Sys2Proof.Machine
end

