-- ==== Sys2Proof/Machine/Arithmetic.lean ====
section
/-! DEFINITION. Arithmetic, logic, compare, bit test, increment and decrement (41_arithmetic_logic). -/

namespace Sys2Proof.Machine

/-! ## What each mnemonic does -/

/-- ADC (R119). -/
def runAdc (src : Source) (s : State) : Res Unit := (readOperand src s).bind fun m s => .ok () (s.addToA m)
/-- SBC (R116, R120): the complement of the operand into the same adder. -/
def runSbc (src : Source) (s : State) : Res Unit := (readOperand src s).bind fun m s => .ok () (s.addToA (~~~m))
/-- AND (R121). -/
def runAnd (src : Source) (s : State) : Res Unit :=
  (readOperand src s).bind fun m s => .ok () ((s.setA (s.a &&& m)).setZN (s.a &&& m))
/-- ORA (R122). -/
def runOra (src : Source) (s : State) : Res Unit :=
  (readOperand src s).bind fun m s => .ok () ((s.setA (s.a ||| m)).setZN (s.a ||| m))
/-- EOR (R123). -/
def runEor (src : Source) (s : State) : Res Unit :=
  (readOperand src s).bind fun m s => .ok () ((s.setA (s.a ^^^ m)).setZN (s.a ^^^ m))
/-- CMP (R124). -/
def runCmp (src : Source) (s : State) : Res Unit := (readOperand src s).bind fun m s => .ok () (s.compare s.a m)
/-- CPX (R125). -/
def runCpx (src : Source) (s : State) : Res Unit := (readOperand src s).bind fun m s => .ok () (s.compare s.x m)
/-- CPY (R126). -/
def runCpy (src : Source) (s : State) : Res Unit := (readOperand src s).bind fun m s => .ok () (s.compare s.y m)
/-- BIT (R127). -/
def runBit (m : MemOperand) (s : State) : Res Unit := (readOperand (.mem m) s).bind fun v s => .ok () (s.bitTest v)
/-- INC (R128). -/
def runInc (m : MemOperand) (s : State) : Res Unit := modifyMemory (fun v => v + 1#8) m s
/-- DEC (R129). -/
def runDec (m : MemOperand) (s : State) : Res Unit := modifyMemory (fun v => v - 1#8) m s
/-- INX (R130). -/
def runInx (s : State) : Res Unit := .ok () ((s.setX (s.x + 1#8)).setZN (s.x + 1#8))
/-- INY (R131). -/
def runIny (s : State) : Res Unit := .ok () ((s.setY (s.y + 1#8)).setZN (s.y + 1#8))
/-- DEX (R132). -/
def runDex (s : State) : Res Unit := .ok () ((s.setX (s.x - 1#8)).setZN (s.x - 1#8))
/-- DEY (R133). -/
def runDey (s : State) : Res Unit := .ok () ((s.setY (s.y - 1#8)).setZN (s.y - 1#8))

/-! ## The meanings, one per row of the opcode table -/

/-! ### ADC -/

/-- ADC, Immediate ($69): R119. -/
def execAdcImm (v : Byte) (s : State) : StepOutcome := (runAdc (.imm v) s).outcome

/-- ADC, ZeroPage ($65): R119. -/
def execAdcZp (a : Byte) (s : State) : StepOutcome := (runAdc (.mem (.zp a)) s).outcome

/-- ADC, ZeroPageX ($75): R119. -/
def execAdcZpx (a : Byte) (s : State) : StepOutcome := (runAdc (.mem (.zpx a)) s).outcome

/-- ADC, Absolute ($6D): R119. -/
def execAdcAbs (w : Addr) (s : State) : StepOutcome := (runAdc (.mem (.abs w)) s).outcome

/-- ADC, AbsoluteX ($7D): R119. -/
def execAdcAbx (w : Addr) (s : State) : StepOutcome := (runAdc (.mem (.abx w)) s).outcome

/-- ADC, AbsoluteY ($79): R119. -/
def execAdcAby (w : Addr) (s : State) : StepOutcome := (runAdc (.mem (.aby w)) s).outcome

/-- ADC, IndexedIndirect ($61): R119. -/
def execAdcIzx (a : Byte) (s : State) : StepOutcome := (runAdc (.mem (.izx a)) s).outcome

/-- ADC, IndirectIndexed ($71): R119. -/
def execAdcIzy (a : Byte) (s : State) : StepOutcome := (runAdc (.mem (.izy a)) s).outcome

/-! ### SBC -/

/-- SBC, Immediate ($E9): R120. -/
def execSbcImm (v : Byte) (s : State) : StepOutcome := (runSbc (.imm v) s).outcome

/-- SBC, ZeroPage ($E5): R120. -/
def execSbcZp (a : Byte) (s : State) : StepOutcome := (runSbc (.mem (.zp a)) s).outcome

/-- SBC, ZeroPageX ($F5): R120. -/
def execSbcZpx (a : Byte) (s : State) : StepOutcome := (runSbc (.mem (.zpx a)) s).outcome

/-- SBC, Absolute ($ED): R120. -/
def execSbcAbs (w : Addr) (s : State) : StepOutcome := (runSbc (.mem (.abs w)) s).outcome

/-- SBC, AbsoluteX ($FD): R120. -/
def execSbcAbx (w : Addr) (s : State) : StepOutcome := (runSbc (.mem (.abx w)) s).outcome

/-- SBC, AbsoluteY ($F9): R120. -/
def execSbcAby (w : Addr) (s : State) : StepOutcome := (runSbc (.mem (.aby w)) s).outcome

/-- SBC, IndexedIndirect ($E1): R120. -/
def execSbcIzx (a : Byte) (s : State) : StepOutcome := (runSbc (.mem (.izx a)) s).outcome

/-- SBC, IndirectIndexed ($F1): R120. -/
def execSbcIzy (a : Byte) (s : State) : StepOutcome := (runSbc (.mem (.izy a)) s).outcome

/-! ### AND -/

/-- AND, Immediate ($29): R121. -/
def execAndImm (v : Byte) (s : State) : StepOutcome := (runAnd (.imm v) s).outcome

/-- AND, ZeroPage ($25): R121. -/
def execAndZp (a : Byte) (s : State) : StepOutcome := (runAnd (.mem (.zp a)) s).outcome

/-- AND, ZeroPageX ($35): R121. -/
def execAndZpx (a : Byte) (s : State) : StepOutcome := (runAnd (.mem (.zpx a)) s).outcome

/-- AND, Absolute ($2D): R121. -/
def execAndAbs (w : Addr) (s : State) : StepOutcome := (runAnd (.mem (.abs w)) s).outcome

/-- AND, AbsoluteX ($3D): R121. -/
def execAndAbx (w : Addr) (s : State) : StepOutcome := (runAnd (.mem (.abx w)) s).outcome

/-- AND, AbsoluteY ($39): R121. -/
def execAndAby (w : Addr) (s : State) : StepOutcome := (runAnd (.mem (.aby w)) s).outcome

/-- AND, IndexedIndirect ($21): R121. -/
def execAndIzx (a : Byte) (s : State) : StepOutcome := (runAnd (.mem (.izx a)) s).outcome

/-- AND, IndirectIndexed ($31): R121. -/
def execAndIzy (a : Byte) (s : State) : StepOutcome := (runAnd (.mem (.izy a)) s).outcome

/-! ### ORA -/

/-- ORA, Immediate ($09): R122. -/
def execOraImm (v : Byte) (s : State) : StepOutcome := (runOra (.imm v) s).outcome

/-- ORA, ZeroPage ($05): R122. -/
def execOraZp (a : Byte) (s : State) : StepOutcome := (runOra (.mem (.zp a)) s).outcome

/-- ORA, ZeroPageX ($15): R122. -/
def execOraZpx (a : Byte) (s : State) : StepOutcome := (runOra (.mem (.zpx a)) s).outcome

/-- ORA, Absolute ($0D): R122. -/
def execOraAbs (w : Addr) (s : State) : StepOutcome := (runOra (.mem (.abs w)) s).outcome

/-- ORA, AbsoluteX ($1D): R122. -/
def execOraAbx (w : Addr) (s : State) : StepOutcome := (runOra (.mem (.abx w)) s).outcome

/-- ORA, AbsoluteY ($19): R122. -/
def execOraAby (w : Addr) (s : State) : StepOutcome := (runOra (.mem (.aby w)) s).outcome

/-- ORA, IndexedIndirect ($01): R122. -/
def execOraIzx (a : Byte) (s : State) : StepOutcome := (runOra (.mem (.izx a)) s).outcome

/-- ORA, IndirectIndexed ($11): R122. -/
def execOraIzy (a : Byte) (s : State) : StepOutcome := (runOra (.mem (.izy a)) s).outcome

/-! ### EOR -/

/-- EOR, Immediate ($49): R123. -/
def execEorImm (v : Byte) (s : State) : StepOutcome := (runEor (.imm v) s).outcome

/-- EOR, ZeroPage ($45): R123. -/
def execEorZp (a : Byte) (s : State) : StepOutcome := (runEor (.mem (.zp a)) s).outcome

/-- EOR, ZeroPageX ($55): R123. -/
def execEorZpx (a : Byte) (s : State) : StepOutcome := (runEor (.mem (.zpx a)) s).outcome

/-- EOR, Absolute ($4D): R123. -/
def execEorAbs (w : Addr) (s : State) : StepOutcome := (runEor (.mem (.abs w)) s).outcome

/-- EOR, AbsoluteX ($5D): R123. -/
def execEorAbx (w : Addr) (s : State) : StepOutcome := (runEor (.mem (.abx w)) s).outcome

/-- EOR, AbsoluteY ($59): R123. -/
def execEorAby (w : Addr) (s : State) : StepOutcome := (runEor (.mem (.aby w)) s).outcome

/-- EOR, IndexedIndirect ($41): R123. -/
def execEorIzx (a : Byte) (s : State) : StepOutcome := (runEor (.mem (.izx a)) s).outcome

/-- EOR, IndirectIndexed ($51): R123. -/
def execEorIzy (a : Byte) (s : State) : StepOutcome := (runEor (.mem (.izy a)) s).outcome

/-! ### CMP -/

/-- CMP, Immediate ($C9): R124. -/
def execCmpImm (v : Byte) (s : State) : StepOutcome := (runCmp (.imm v) s).outcome

/-- CMP, ZeroPage ($C5): R124. -/
def execCmpZp (a : Byte) (s : State) : StepOutcome := (runCmp (.mem (.zp a)) s).outcome

/-- CMP, ZeroPageX ($D5): R124. -/
def execCmpZpx (a : Byte) (s : State) : StepOutcome := (runCmp (.mem (.zpx a)) s).outcome

/-- CMP, Absolute ($CD): R124. -/
def execCmpAbs (w : Addr) (s : State) : StepOutcome := (runCmp (.mem (.abs w)) s).outcome

/-- CMP, AbsoluteX ($DD): R124. -/
def execCmpAbx (w : Addr) (s : State) : StepOutcome := (runCmp (.mem (.abx w)) s).outcome

/-- CMP, AbsoluteY ($D9): R124. -/
def execCmpAby (w : Addr) (s : State) : StepOutcome := (runCmp (.mem (.aby w)) s).outcome

/-- CMP, IndexedIndirect ($C1): R124. -/
def execCmpIzx (a : Byte) (s : State) : StepOutcome := (runCmp (.mem (.izx a)) s).outcome

/-- CMP, IndirectIndexed ($D1): R124. -/
def execCmpIzy (a : Byte) (s : State) : StepOutcome := (runCmp (.mem (.izy a)) s).outcome

/-! ### CPX -/

/-- CPX, Immediate ($E0): R125. -/
def execCpxImm (v : Byte) (s : State) : StepOutcome := (runCpx (.imm v) s).outcome

/-- CPX, ZeroPage ($E4): R125. -/
def execCpxZp (a : Byte) (s : State) : StepOutcome := (runCpx (.mem (.zp a)) s).outcome

/-- CPX, Absolute ($EC): R125. -/
def execCpxAbs (w : Addr) (s : State) : StepOutcome := (runCpx (.mem (.abs w)) s).outcome

/-! ### CPY -/

/-- CPY, Immediate ($C0): R126. -/
def execCpyImm (v : Byte) (s : State) : StepOutcome := (runCpy (.imm v) s).outcome

/-- CPY, ZeroPage ($C4): R126. -/
def execCpyZp (a : Byte) (s : State) : StepOutcome := (runCpy (.mem (.zp a)) s).outcome

/-- CPY, Absolute ($CC): R126. -/
def execCpyAbs (w : Addr) (s : State) : StepOutcome := (runCpy (.mem (.abs w)) s).outcome

/-! ### BIT -/

/-- BIT, ZeroPage ($24): R127. -/
def execBitZp (a : Byte) (s : State) : StepOutcome := (runBit (.zp a) s).outcome

/-- BIT, Absolute ($2C): R127. -/
def execBitAbs (w : Addr) (s : State) : StepOutcome := (runBit (.abs w) s).outcome

/-! ### INC -/

/-- INC, ZeroPage ($E6): R128. -/
def execIncZp (a : Byte) (s : State) : StepOutcome := (runInc (.zp a) s).outcome

/-- INC, ZeroPageX ($F6): R128. -/
def execIncZpx (a : Byte) (s : State) : StepOutcome := (runInc (.zpx a) s).outcome

/-- INC, Absolute ($EE): R128. -/
def execIncAbs (w : Addr) (s : State) : StepOutcome := (runInc (.abs w) s).outcome

/-- INC, AbsoluteX ($FE): R128. -/
def execIncAbx (w : Addr) (s : State) : StepOutcome := (runInc (.abx w) s).outcome

/-! ### DEC -/

/-- DEC, ZeroPage ($C6): R129. -/
def execDecZp (a : Byte) (s : State) : StepOutcome := (runDec (.zp a) s).outcome

/-- DEC, ZeroPageX ($D6): R129. -/
def execDecZpx (a : Byte) (s : State) : StepOutcome := (runDec (.zpx a) s).outcome

/-- DEC, Absolute ($CE): R129. -/
def execDecAbs (w : Addr) (s : State) : StepOutcome := (runDec (.abs w) s).outcome

/-- DEC, AbsoluteX ($DE): R129. -/
def execDecAbx (w : Addr) (s : State) : StepOutcome := (runDec (.abx w) s).outcome

/-! ### INX -/

/-- INX, Implicit ($E8): R130. -/
def execInx (s : State) : StepOutcome := (runInx s).outcome

/-! ### INY -/

/-- INY, Implicit ($C8): R131. -/
def execIny (s : State) : StepOutcome := (runIny s).outcome

/-! ### DEX -/

/-- DEX, Implicit ($CA): R132. -/
def execDex (s : State) : StepOutcome := (runDex s).outcome

/-! ### DEY -/

/-- DEY, Implicit ($88): R133. -/
def execDey (s : State) : StepOutcome := (runDey s).outcome

end Sys2Proof.Machine
end

