-- ==== Sys2Proof/Machine/Control.lean ====
section
/-! DEFINITION. Branches, jumps, calls and returns (43_control_flow). PC is the address of the next instruction. -/

namespace Sys2Proof.Machine

/-! ## What each mnemonic does -/

/-- BCC (R148). -/
def runBcc (off : Byte) (s : State) : Res Unit := branchIf (!s.flag .carry) off s
/-- BCS (R149). -/
def runBcs (off : Byte) (s : State) : Res Unit := branchIf (s.flag .carry) off s
/-- BEQ (R150). -/
def runBeq (off : Byte) (s : State) : Res Unit := branchIf (s.flag .zero) off s
/-- BNE (R151). -/
def runBne (off : Byte) (s : State) : Res Unit := branchIf (!s.flag .zero) off s
/-- BMI (R152). -/
def runBmi (off : Byte) (s : State) : Res Unit := branchIf (s.flag .negative) off s
/-- BPL (R153). -/
def runBpl (off : Byte) (s : State) : Res Unit := branchIf (!s.flag .negative) off s
/-- BVC (R154). -/
def runBvc (off : Byte) (s : State) : Res Unit := branchIf (!s.flag .overflow) off s
/-- BVS (R155). -/
def runBvs (off : Byte) (s : State) : Res Unit := branchIf (s.flag .overflow) off s

/-- JMP (R156). -/
def runJmp (j : JumpOperand) (s : State) : Res Unit :=
  match j with
  | .abs w => .ok () (s.setPC w)
  | .ind ptr => (indirectTarget ptr s).bind fun w s => .ok () (s.setPC w)

/-- JSR (R157): pushes the address of its own last byte. -/
def runJsr (w : Addr) (s : State) : Res Unit := (push16 (s.pc - 1#16) s).bind fun _ s => .ok () (s.setPC w)

/-- RTS (R158): pulls and adds 1. -/
def runRts (s : State) : Res Unit := (pull16 s).bind fun w s => .ok () (s.setPC (w + 1#16))

/-! ## The meanings, one per row of the opcode table -/

/-! ### BCC -/

/-- BCC, Relative ($90): R148. -/
def execBcc (off : Byte) (s : State) : StepOutcome := (runBcc off s).outcome

/-! ### BCS -/

/-- BCS, Relative ($B0): R149. -/
def execBcs (off : Byte) (s : State) : StepOutcome := (runBcs off s).outcome

/-! ### BEQ -/

/-- BEQ, Relative ($F0): R150. -/
def execBeq (off : Byte) (s : State) : StepOutcome := (runBeq off s).outcome

/-! ### BNE -/

/-- BNE, Relative ($D0): R151. -/
def execBne (off : Byte) (s : State) : StepOutcome := (runBne off s).outcome

/-! ### BMI -/

/-- BMI, Relative ($30): R152. -/
def execBmi (off : Byte) (s : State) : StepOutcome := (runBmi off s).outcome

/-! ### BPL -/

/-- BPL, Relative ($10): R153. -/
def execBpl (off : Byte) (s : State) : StepOutcome := (runBpl off s).outcome

/-! ### BVC -/

/-- BVC, Relative ($50): R154. -/
def execBvc (off : Byte) (s : State) : StepOutcome := (runBvc off s).outcome

/-! ### BVS -/

/-- BVS, Relative ($70): R155. -/
def execBvs (off : Byte) (s : State) : StepOutcome := (runBvs off s).outcome

/-! ### JMP -/

/-- JMP, Absolute ($4C): R156. -/
def execJmpAbs (w : Addr) (s : State) : StepOutcome := (runJmp (.abs w) s).outcome

/-- JMP, Indirect ($6C): R156. -/
def execJmpInd (w : Addr) (s : State) : StepOutcome := (runJmp (.ind w) s).outcome

/-! ### JSR -/

/-- JSR, Absolute ($20): R157. -/
def execJsr (w : Addr) (s : State) : StepOutcome := (runJsr w s).outcome

/-! ### RTS -/

/-- RTS, Implicit ($60): R158. -/
def execRts (s : State) : StepOutcome := (runRts s).outcome

end Sys2Proof.Machine
end

