-- ==== Sys2Proof/Machine/LoadStore.lean ====
section
/-! DEFINITION. Loads, stores and register transfers (40_load_store_transfer). An instruction's meaning starts with PC at
the next instruction and the base cycles added (R100, log entry 6). -/

namespace Sys2Proof.Machine

/-! ## What each mnemonic does -/

/-- LDA (R101). -/
def runLda (src : Source) (s : State) : Res Unit := (readOperand src s).bind fun v s => .ok () ((s.setA v).setZN v)
/-- LDX (R102). -/
def runLdx (src : Source) (s : State) : Res Unit := (readOperand src s).bind fun v s => .ok () ((s.setX v).setZN v)
/-- LDY (R103). -/
def runLdy (src : Source) (s : State) : Res Unit := (readOperand src s).bind fun v s => .ok () ((s.setY v).setZN v)
/-- STA (R104). -/
def runSta (m : MemOperand) (s : State) : Res Unit := storeOperand s.a m s
/-- STX (R105). -/
def runStx (m : MemOperand) (s : State) : Res Unit := storeOperand s.x m s
/-- STY (R106). -/
def runSty (m : MemOperand) (s : State) : Res Unit := storeOperand s.y m s
/-- TAX (R107). -/
def runTax (s : State) : Res Unit := .ok () ((s.setX s.a).setZN s.a)
/-- TAY (R108). -/
def runTay (s : State) : Res Unit := .ok () ((s.setY s.a).setZN s.a)
/-- TXA (R109). -/
def runTxa (s : State) : Res Unit := .ok () ((s.setA s.x).setZN s.x)
/-- TYA (R110). -/
def runTya (s : State) : Res Unit := .ok () ((s.setA s.y).setZN s.y)
/-- TSX (R111). -/
def runTsx (s : State) : Res Unit := .ok () ((s.setX s.sp).setZN s.sp)
/-- TXS (R112): no flag is written. -/
def runTxs (s : State) : Res Unit := .ok () (s.setSP s.x)

/-! ## The meanings, one per row of the opcode table -/

/-! ### LDA -/

/-- LDA, Immediate ($A9): R101. -/
def execLdaImm (v : Byte) (s : State) : StepOutcome := (runLda (.imm v) s).outcome

/-- LDA, ZeroPage ($A5): R101. -/
def execLdaZp (a : Byte) (s : State) : StepOutcome := (runLda (.mem (.zp a)) s).outcome

/-- LDA, ZeroPageX ($B5): R101. -/
def execLdaZpx (a : Byte) (s : State) : StepOutcome := (runLda (.mem (.zpx a)) s).outcome

/-- LDA, Absolute ($AD): R101. -/
def execLdaAbs (w : Addr) (s : State) : StepOutcome := (runLda (.mem (.abs w)) s).outcome

/-- LDA, AbsoluteX ($BD): R101. -/
def execLdaAbx (w : Addr) (s : State) : StepOutcome := (runLda (.mem (.abx w)) s).outcome

/-- LDA, AbsoluteY ($B9): R101. -/
def execLdaAby (w : Addr) (s : State) : StepOutcome := (runLda (.mem (.aby w)) s).outcome

/-- LDA, IndexedIndirect ($A1): R101. -/
def execLdaIzx (a : Byte) (s : State) : StepOutcome := (runLda (.mem (.izx a)) s).outcome

/-- LDA, IndirectIndexed ($B1): R101. -/
def execLdaIzy (a : Byte) (s : State) : StepOutcome := (runLda (.mem (.izy a)) s).outcome

/-! ### LDX -/

/-- LDX, Immediate ($A2): R102. -/
def execLdxImm (v : Byte) (s : State) : StepOutcome := (runLdx (.imm v) s).outcome

/-- LDX, ZeroPage ($A6): R102. -/
def execLdxZp (a : Byte) (s : State) : StepOutcome := (runLdx (.mem (.zp a)) s).outcome

/-- LDX, ZeroPageY ($B6): R102. -/
def execLdxZpy (a : Byte) (s : State) : StepOutcome := (runLdx (.mem (.zpy a)) s).outcome

/-- LDX, Absolute ($AE): R102. -/
def execLdxAbs (w : Addr) (s : State) : StepOutcome := (runLdx (.mem (.abs w)) s).outcome

/-- LDX, AbsoluteY ($BE): R102. -/
def execLdxAby (w : Addr) (s : State) : StepOutcome := (runLdx (.mem (.aby w)) s).outcome

/-! ### LDY -/

/-- LDY, Immediate ($A0): R103. -/
def execLdyImm (v : Byte) (s : State) : StepOutcome := (runLdy (.imm v) s).outcome

/-- LDY, ZeroPage ($A4): R103. -/
def execLdyZp (a : Byte) (s : State) : StepOutcome := (runLdy (.mem (.zp a)) s).outcome

/-- LDY, ZeroPageX ($B4): R103. -/
def execLdyZpx (a : Byte) (s : State) : StepOutcome := (runLdy (.mem (.zpx a)) s).outcome

/-- LDY, Absolute ($AC): R103. -/
def execLdyAbs (w : Addr) (s : State) : StepOutcome := (runLdy (.mem (.abs w)) s).outcome

/-- LDY, AbsoluteX ($BC): R103. -/
def execLdyAbx (w : Addr) (s : State) : StepOutcome := (runLdy (.mem (.abx w)) s).outcome

/-! ### STA -/

/-- STA, ZeroPage ($85): R104. -/
def execStaZp (a : Byte) (s : State) : StepOutcome := (runSta (.zp a) s).outcome

/-- STA, ZeroPageX ($95): R104. -/
def execStaZpx (a : Byte) (s : State) : StepOutcome := (runSta (.zpx a) s).outcome

/-- STA, Absolute ($8D): R104. -/
def execStaAbs (w : Addr) (s : State) : StepOutcome := (runSta (.abs w) s).outcome

/-- STA, AbsoluteX ($9D): R104. -/
def execStaAbx (w : Addr) (s : State) : StepOutcome := (runSta (.abx w) s).outcome

/-- STA, AbsoluteY ($99): R104. -/
def execStaAby (w : Addr) (s : State) : StepOutcome := (runSta (.aby w) s).outcome

/-- STA, IndexedIndirect ($81): R104. -/
def execStaIzx (a : Byte) (s : State) : StepOutcome := (runSta (.izx a) s).outcome

/-- STA, IndirectIndexed ($91): R104. -/
def execStaIzy (a : Byte) (s : State) : StepOutcome := (runSta (.izy a) s).outcome

/-! ### STX -/

/-- STX, ZeroPage ($86): R105. -/
def execStxZp (a : Byte) (s : State) : StepOutcome := (runStx (.zp a) s).outcome

/-- STX, ZeroPageY ($96): R105. -/
def execStxZpy (a : Byte) (s : State) : StepOutcome := (runStx (.zpy a) s).outcome

/-- STX, Absolute ($8E): R105. -/
def execStxAbs (w : Addr) (s : State) : StepOutcome := (runStx (.abs w) s).outcome

/-! ### STY -/

/-- STY, ZeroPage ($84): R106. -/
def execStyZp (a : Byte) (s : State) : StepOutcome := (runSty (.zp a) s).outcome

/-- STY, ZeroPageX ($94): R106. -/
def execStyZpx (a : Byte) (s : State) : StepOutcome := (runSty (.zpx a) s).outcome

/-- STY, Absolute ($8C): R106. -/
def execStyAbs (w : Addr) (s : State) : StepOutcome := (runSty (.abs w) s).outcome

/-! ### TAX -/

/-- TAX, Implicit ($AA): R107. -/
def execTax (s : State) : StepOutcome := (runTax s).outcome

/-! ### TAY -/

/-- TAY, Implicit ($A8): R108. -/
def execTay (s : State) : StepOutcome := (runTay s).outcome

/-! ### TXA -/

/-- TXA, Implicit ($8A): R109. -/
def execTxa (s : State) : StepOutcome := (runTxa s).outcome

/-! ### TYA -/

/-- TYA, Implicit ($98): R110. -/
def execTya (s : State) : StepOutcome := (runTya s).outcome

/-! ### TSX -/

/-- TSX, Implicit ($BA): R111. -/
def execTsx (s : State) : StepOutcome := (runTsx s).outcome

/-! ### TXS -/

/-- TXS, Implicit ($9A): R112. -/
def execTxs (s : State) : StepOutcome := (runTxs s).outcome

end Sys2Proof.Machine
end

