-- ==== Sys2Proof/Machine/Shift.lean ====
section
/-! DEFINITION. Shifts and rotates (42_shift_rotate). -/

namespace Sys2Proof.Machine

/-! ## What each mnemonic does -/

/-- The data path of ASL (R136): the carry in is ignored. -/
def shiftAsl (m : Byte) (_c : Bool) : Shifted := { result := m <<< 1, carry := m.getLsbD 7 }
/-- The data path of LSR (R137): the carry in is ignored. -/
def shiftLsr (m : Byte) (_c : Bool) : Shifted := { result := m >>> 1, carry := m.getLsbD 0 }
/-- The data path of ROL (R138). -/
def shiftRol (m : Byte) (c : Bool) : Shifted := { result := setBit (m <<< 1) 0 c, carry := m.getLsbD 7 }
/-- The data path of ROR (R139). -/
def shiftRor (m : Byte) (c : Bool) : Shifted := { result := setBit (m >>> 1) 7 c, carry := m.getLsbD 0 }

/-- ASL (R136). -/
def runAsl (t : Target) (s : State) : Res Unit := shiftOperand shiftAsl t s
/-- LSR (R137). -/
def runLsr (t : Target) (s : State) : Res Unit := shiftOperand shiftLsr t s
/-- ROL (R138). -/
def runRol (t : Target) (s : State) : Res Unit := shiftOperand shiftRol t s
/-- ROR (R139). -/
def runRor (t : Target) (s : State) : Res Unit := shiftOperand shiftRor t s

/-! ## The meanings, one per row of the opcode table -/

/-! ### ASL -/

/-- ASL, Accumulator ($0A): R136. -/
def execAslAcc (s : State) : StepOutcome := (runAsl .acc s).outcome

/-- ASL, ZeroPage ($06): R136. -/
def execAslZp (a : Byte) (s : State) : StepOutcome := (runAsl (.mem (.zp a)) s).outcome

/-- ASL, ZeroPageX ($16): R136. -/
def execAslZpx (a : Byte) (s : State) : StepOutcome := (runAsl (.mem (.zpx a)) s).outcome

/-- ASL, Absolute ($0E): R136. -/
def execAslAbs (w : Addr) (s : State) : StepOutcome := (runAsl (.mem (.abs w)) s).outcome

/-- ASL, AbsoluteX ($1E): R136. -/
def execAslAbx (w : Addr) (s : State) : StepOutcome := (runAsl (.mem (.abx w)) s).outcome

/-! ### LSR -/

/-- LSR, Accumulator ($4A): R137. -/
def execLsrAcc (s : State) : StepOutcome := (runLsr .acc s).outcome

/-- LSR, ZeroPage ($46): R137. -/
def execLsrZp (a : Byte) (s : State) : StepOutcome := (runLsr (.mem (.zp a)) s).outcome

/-- LSR, ZeroPageX ($56): R137. -/
def execLsrZpx (a : Byte) (s : State) : StepOutcome := (runLsr (.mem (.zpx a)) s).outcome

/-- LSR, Absolute ($4E): R137. -/
def execLsrAbs (w : Addr) (s : State) : StepOutcome := (runLsr (.mem (.abs w)) s).outcome

/-- LSR, AbsoluteX ($5E): R137. -/
def execLsrAbx (w : Addr) (s : State) : StepOutcome := (runLsr (.mem (.abx w)) s).outcome

/-! ### ROL -/

/-- ROL, Accumulator ($2A): R138. -/
def execRolAcc (s : State) : StepOutcome := (runRol .acc s).outcome

/-- ROL, ZeroPage ($26): R138. -/
def execRolZp (a : Byte) (s : State) : StepOutcome := (runRol (.mem (.zp a)) s).outcome

/-- ROL, ZeroPageX ($36): R138. -/
def execRolZpx (a : Byte) (s : State) : StepOutcome := (runRol (.mem (.zpx a)) s).outcome

/-- ROL, Absolute ($2E): R138. -/
def execRolAbs (w : Addr) (s : State) : StepOutcome := (runRol (.mem (.abs w)) s).outcome

/-- ROL, AbsoluteX ($3E): R138. -/
def execRolAbx (w : Addr) (s : State) : StepOutcome := (runRol (.mem (.abx w)) s).outcome

/-! ### ROR -/

/-- ROR, Accumulator ($6A): R139. -/
def execRorAcc (s : State) : StepOutcome := (runRor .acc s).outcome

/-- ROR, ZeroPage ($66): R139. -/
def execRorZp (a : Byte) (s : State) : StepOutcome := (runRor (.mem (.zp a)) s).outcome

/-- ROR, ZeroPageX ($76): R139. -/
def execRorZpx (a : Byte) (s : State) : StepOutcome := (runRor (.mem (.zpx a)) s).outcome

/-- ROR, Absolute ($6E): R139. -/
def execRorAbs (w : Addr) (s : State) : StepOutcome := (runRor (.mem (.abs w)) s).outcome

/-- ROR, AbsoluteX ($7E): R139. -/
def execRorAbx (w : Addr) (s : State) : StepOutcome := (runRor (.mem (.abx w)) s).outcome

end Sys2Proof.Machine
end

