-- ==== Sys2Proof/Machine/System.lean ====
section
/-! DEFINITION. Stack, flag and system instructions (44_stack_flags_system), and the illegal opcodes (30_encoding R92). -/

namespace Sys2Proof.Machine

/-! ## What each mnemonic does -/

/-- PHA (R165). -/
def runPha (s : State) : Res Unit := push8 s.a s
/-- PLA (R166). -/
def runPla (s : State) : Res Unit := (pull8 s).bind fun v s => .ok () ((s.setA v).setZN v)
/-- PHP (R167): bits 4 and 5 set in the pushed byte, P unchanged. -/
def runPhp (s : State) : Res Unit := push8 (statusWithBreak s.p) s
/-- PLP (R168): bit 4 cleared and bit 5 set before the byte is installed. -/
def runPlp (s : State) : Res Unit := (pull8 s).bind fun b s => .ok () (s.setP (statusWithoutBreak b))

/-- CLC (R169). -/
def runClc (s : State) : Res Unit := .ok () (s.setFlag .carry false)
/-- SEC (R170). -/
def runSec (s : State) : Res Unit := .ok () (s.setFlag .carry true)
/-- CLI (R171): takes effect in this step (R24). -/
def runCli (s : State) : Res Unit := .ok () (s.setFlag .interruptDisable false)
/-- SEI (R172): takes effect in this step (R24). -/
def runSei (s : State) : Res Unit := .ok () (s.setFlag .interruptDisable true)
/-- CLD (R173). -/
def runCld (s : State) : Res Unit := .ok () (s.setFlag .decimal false)
/-- SED (R174). -/
def runSed (s : State) : Res Unit := .ok () (s.setFlag .decimal true)
/-- CLV (R175). -/
def runClv (s : State) : Res Unit := .ok () (s.setFlag .overflow false)

/-- NOP (R176): only the step's own effects, PC, cycles and the PPU's advance. -/
def runNop (s : State) : Res Unit := .ok () s

/-- BRK (R185). -/
def runBrk (s : State) : Res Unit := softwareTrap s
/-- RTI (R186). -/
def runRti (s : State) : Res Unit := returnFromInterrupt s

/-- An opcode byte with no descriptor (R72, R92, R201): the fault records the byte and the address it was fetched from,
which is one before PC, the opcode fetch having advanced PC by 1. -/
def runIllegal (opcode : Byte) (s : State) : Res Unit := .fault (.illegalOpcode opcode (s.pc - 1#16)) s

/-! ## The meanings, one per row of the opcode table -/

/-! ### PHA -/

/-- PHA, Implicit ($48): R165. -/
def execPha (s : State) : StepOutcome := (runPha s).outcome

/-! ### PLA -/

/-- PLA, Implicit ($68): R166. -/
def execPla (s : State) : StepOutcome := (runPla s).outcome

/-! ### PHP -/

/-- PHP, Implicit ($08): R167. -/
def execPhp (s : State) : StepOutcome := (runPhp s).outcome

/-! ### PLP -/

/-- PLP, Implicit ($28): R168. -/
def execPlp (s : State) : StepOutcome := (runPlp s).outcome

/-! ### CLC -/

/-- CLC, Implicit ($18): R169. -/
def execClc (s : State) : StepOutcome := (runClc s).outcome

/-! ### SEC -/

/-- SEC, Implicit ($38): R170. -/
def execSec (s : State) : StepOutcome := (runSec s).outcome

/-! ### CLI -/

/-- CLI, Implicit ($58): R171. -/
def execCli (s : State) : StepOutcome := (runCli s).outcome

/-! ### SEI -/

/-- SEI, Implicit ($78): R172. -/
def execSei (s : State) : StepOutcome := (runSei s).outcome

/-! ### CLD -/

/-- CLD, Implicit ($D8): R173. -/
def execCld (s : State) : StepOutcome := (runCld s).outcome

/-! ### SED -/

/-- SED, Implicit ($F8): R174. -/
def execSed (s : State) : StepOutcome := (runSed s).outcome

/-! ### CLV -/

/-- CLV, Implicit ($B8): R175. -/
def execClv (s : State) : StepOutcome := (runClv s).outcome

/-! ### NOP -/

/-- NOP, Implicit ($EA): R176. -/
def execNop (s : State) : StepOutcome := (runNop s).outcome

/-! ### BRK -/

/-- BRK, Implicit ($00): R185. -/
def execBrk (s : State) : StepOutcome := (runBrk s).outcome

/-! ### RTI -/

/-- RTI, Implicit ($40): R186. -/
def execRti (s : State) : StepOutcome := (runRti s).outcome

/-! ### ILLEGAL -/

/-- The 105 opcode bytes with no descriptor: the fault IllegalOpcode (R92). -/
def execIllegal (opcode : Byte) (s : State) : StepOutcome := (runIllegal opcode s).outcome

end Sys2Proof.Machine
end

