-- ==== Sys2Proof/Syntax.lean ====
section
/-! DEFINITION. The instructions: one constructor per instruction row of spec/opcode_table.json (151 rows, 30_encoding
R90), with the operand bytes the row has, and `illegal` for its 105 rows ILLEGAL (R92). A constructor is named after its
mnemonic, with the mode's abbreviation (R74) where the mnemonic has several rows. -/

namespace Sys2Proof

/-- The instruction set of 30_encoding R90. -/
inductive Instr where
  | ldaImm (v : Byte)
  | ldaZp (a : Byte)
  | ldaZpx (a : Byte)
  | ldaAbs (w : Addr)
  | ldaAbx (w : Addr)
  | ldaAby (w : Addr)
  | ldaIzx (a : Byte)
  | ldaIzy (a : Byte)
  | ldxImm (v : Byte)
  | ldxZp (a : Byte)
  | ldxZpy (a : Byte)
  | ldxAbs (w : Addr)
  | ldxAby (w : Addr)
  | ldyImm (v : Byte)
  | ldyZp (a : Byte)
  | ldyZpx (a : Byte)
  | ldyAbs (w : Addr)
  | ldyAbx (w : Addr)
  | staZp (a : Byte)
  | staZpx (a : Byte)
  | staAbs (w : Addr)
  | staAbx (w : Addr)
  | staAby (w : Addr)
  | staIzx (a : Byte)
  | staIzy (a : Byte)
  | stxZp (a : Byte)
  | stxZpy (a : Byte)
  | stxAbs (w : Addr)
  | styZp (a : Byte)
  | styZpx (a : Byte)
  | styAbs (w : Addr)
  | tax
  | tay
  | txa
  | tya
  | tsx
  | txs
  | adcImm (v : Byte)
  | adcZp (a : Byte)
  | adcZpx (a : Byte)
  | adcAbs (w : Addr)
  | adcAbx (w : Addr)
  | adcAby (w : Addr)
  | adcIzx (a : Byte)
  | adcIzy (a : Byte)
  | sbcImm (v : Byte)
  | sbcZp (a : Byte)
  | sbcZpx (a : Byte)
  | sbcAbs (w : Addr)
  | sbcAbx (w : Addr)
  | sbcAby (w : Addr)
  | sbcIzx (a : Byte)
  | sbcIzy (a : Byte)
  | andImm (v : Byte)
  | andZp (a : Byte)
  | andZpx (a : Byte)
  | andAbs (w : Addr)
  | andAbx (w : Addr)
  | andAby (w : Addr)
  | andIzx (a : Byte)
  | andIzy (a : Byte)
  | oraImm (v : Byte)
  | oraZp (a : Byte)
  | oraZpx (a : Byte)
  | oraAbs (w : Addr)
  | oraAbx (w : Addr)
  | oraAby (w : Addr)
  | oraIzx (a : Byte)
  | oraIzy (a : Byte)
  | eorImm (v : Byte)
  | eorZp (a : Byte)
  | eorZpx (a : Byte)
  | eorAbs (w : Addr)
  | eorAbx (w : Addr)
  | eorAby (w : Addr)
  | eorIzx (a : Byte)
  | eorIzy (a : Byte)
  | cmpImm (v : Byte)
  | cmpZp (a : Byte)
  | cmpZpx (a : Byte)
  | cmpAbs (w : Addr)
  | cmpAbx (w : Addr)
  | cmpAby (w : Addr)
  | cmpIzx (a : Byte)
  | cmpIzy (a : Byte)
  | cpxImm (v : Byte)
  | cpxZp (a : Byte)
  | cpxAbs (w : Addr)
  | cpyImm (v : Byte)
  | cpyZp (a : Byte)
  | cpyAbs (w : Addr)
  | bitZp (a : Byte)
  | bitAbs (w : Addr)
  | incZp (a : Byte)
  | incZpx (a : Byte)
  | incAbs (w : Addr)
  | incAbx (w : Addr)
  | decZp (a : Byte)
  | decZpx (a : Byte)
  | decAbs (w : Addr)
  | decAbx (w : Addr)
  | inx
  | iny
  | dex
  | dey
  | aslAcc
  | aslZp (a : Byte)
  | aslZpx (a : Byte)
  | aslAbs (w : Addr)
  | aslAbx (w : Addr)
  | lsrAcc
  | lsrZp (a : Byte)
  | lsrZpx (a : Byte)
  | lsrAbs (w : Addr)
  | lsrAbx (w : Addr)
  | rolAcc
  | rolZp (a : Byte)
  | rolZpx (a : Byte)
  | rolAbs (w : Addr)
  | rolAbx (w : Addr)
  | rorAcc
  | rorZp (a : Byte)
  | rorZpx (a : Byte)
  | rorAbs (w : Addr)
  | rorAbx (w : Addr)
  | bcc (off : Byte)
  | bcs (off : Byte)
  | beq (off : Byte)
  | bne (off : Byte)
  | bmi (off : Byte)
  | bpl (off : Byte)
  | bvc (off : Byte)
  | bvs (off : Byte)
  | jmpAbs (w : Addr)
  | jmpInd (w : Addr)
  | jsr (w : Addr)
  | rts
  | pha
  | pla
  | php
  | plp
  | clc
  | sec
  | cli
  | sei
  | cld
  | sed
  | clv
  | nop
  | brk
  | rti
  | illegal (opcode : Byte)
  deriving DecidableEq, Repr

end Sys2Proof
end

