-- ==== Sys2Proof/Machine/Dispatch.lean ====
section
/-! DEFINITION. One arm per constructor of Instr, each a direct call of that row's meaning. -/

namespace Sys2Proof.Machine

def exec (i : Instr) (s : State) : Host.Outcome State Fault Refusal :=
  match i with
  | .ldaImm v => Sys2Proof.Machine.execLdaImm v s
  | .ldaZp a => Sys2Proof.Machine.execLdaZp a s
  | .ldaZpx a => Sys2Proof.Machine.execLdaZpx a s
  | .ldaAbs w => Sys2Proof.Machine.execLdaAbs w s
  | .ldaAbx w => Sys2Proof.Machine.execLdaAbx w s
  | .ldaAby w => Sys2Proof.Machine.execLdaAby w s
  | .ldaIzx a => Sys2Proof.Machine.execLdaIzx a s
  | .ldaIzy a => Sys2Proof.Machine.execLdaIzy a s
  | .ldxImm v => Sys2Proof.Machine.execLdxImm v s
  | .ldxZp a => Sys2Proof.Machine.execLdxZp a s
  | .ldxZpy a => Sys2Proof.Machine.execLdxZpy a s
  | .ldxAbs w => Sys2Proof.Machine.execLdxAbs w s
  | .ldxAby w => Sys2Proof.Machine.execLdxAby w s
  | .ldyImm v => Sys2Proof.Machine.execLdyImm v s
  | .ldyZp a => Sys2Proof.Machine.execLdyZp a s
  | .ldyZpx a => Sys2Proof.Machine.execLdyZpx a s
  | .ldyAbs w => Sys2Proof.Machine.execLdyAbs w s
  | .ldyAbx w => Sys2Proof.Machine.execLdyAbx w s
  | .staZp a => Sys2Proof.Machine.execStaZp a s
  | .staZpx a => Sys2Proof.Machine.execStaZpx a s
  | .staAbs w => Sys2Proof.Machine.execStaAbs w s
  | .staAbx w => Sys2Proof.Machine.execStaAbx w s
  | .staAby w => Sys2Proof.Machine.execStaAby w s
  | .staIzx a => Sys2Proof.Machine.execStaIzx a s
  | .staIzy a => Sys2Proof.Machine.execStaIzy a s
  | .stxZp a => Sys2Proof.Machine.execStxZp a s
  | .stxZpy a => Sys2Proof.Machine.execStxZpy a s
  | .stxAbs w => Sys2Proof.Machine.execStxAbs w s
  | .styZp a => Sys2Proof.Machine.execStyZp a s
  | .styZpx a => Sys2Proof.Machine.execStyZpx a s
  | .styAbs w => Sys2Proof.Machine.execStyAbs w s
  | .tax => Sys2Proof.Machine.execTax s
  | .tay => Sys2Proof.Machine.execTay s
  | .txa => Sys2Proof.Machine.execTxa s
  | .tya => Sys2Proof.Machine.execTya s
  | .tsx => Sys2Proof.Machine.execTsx s
  | .txs => Sys2Proof.Machine.execTxs s
  | .adcImm v => Sys2Proof.Machine.execAdcImm v s
  | .adcZp a => Sys2Proof.Machine.execAdcZp a s
  | .adcZpx a => Sys2Proof.Machine.execAdcZpx a s
  | .adcAbs w => Sys2Proof.Machine.execAdcAbs w s
  | .adcAbx w => Sys2Proof.Machine.execAdcAbx w s
  | .adcAby w => Sys2Proof.Machine.execAdcAby w s
  | .adcIzx a => Sys2Proof.Machine.execAdcIzx a s
  | .adcIzy a => Sys2Proof.Machine.execAdcIzy a s
  | .sbcImm v => Sys2Proof.Machine.execSbcImm v s
  | .sbcZp a => Sys2Proof.Machine.execSbcZp a s
  | .sbcZpx a => Sys2Proof.Machine.execSbcZpx a s
  | .sbcAbs w => Sys2Proof.Machine.execSbcAbs w s
  | .sbcAbx w => Sys2Proof.Machine.execSbcAbx w s
  | .sbcAby w => Sys2Proof.Machine.execSbcAby w s
  | .sbcIzx a => Sys2Proof.Machine.execSbcIzx a s
  | .sbcIzy a => Sys2Proof.Machine.execSbcIzy a s
  | .andImm v => Sys2Proof.Machine.execAndImm v s
  | .andZp a => Sys2Proof.Machine.execAndZp a s
  | .andZpx a => Sys2Proof.Machine.execAndZpx a s
  | .andAbs w => Sys2Proof.Machine.execAndAbs w s
  | .andAbx w => Sys2Proof.Machine.execAndAbx w s
  | .andAby w => Sys2Proof.Machine.execAndAby w s
  | .andIzx a => Sys2Proof.Machine.execAndIzx a s
  | .andIzy a => Sys2Proof.Machine.execAndIzy a s
  | .oraImm v => Sys2Proof.Machine.execOraImm v s
  | .oraZp a => Sys2Proof.Machine.execOraZp a s
  | .oraZpx a => Sys2Proof.Machine.execOraZpx a s
  | .oraAbs w => Sys2Proof.Machine.execOraAbs w s
  | .oraAbx w => Sys2Proof.Machine.execOraAbx w s
  | .oraAby w => Sys2Proof.Machine.execOraAby w s
  | .oraIzx a => Sys2Proof.Machine.execOraIzx a s
  | .oraIzy a => Sys2Proof.Machine.execOraIzy a s
  | .eorImm v => Sys2Proof.Machine.execEorImm v s
  | .eorZp a => Sys2Proof.Machine.execEorZp a s
  | .eorZpx a => Sys2Proof.Machine.execEorZpx a s
  | .eorAbs w => Sys2Proof.Machine.execEorAbs w s
  | .eorAbx w => Sys2Proof.Machine.execEorAbx w s
  | .eorAby w => Sys2Proof.Machine.execEorAby w s
  | .eorIzx a => Sys2Proof.Machine.execEorIzx a s
  | .eorIzy a => Sys2Proof.Machine.execEorIzy a s
  | .cmpImm v => Sys2Proof.Machine.execCmpImm v s
  | .cmpZp a => Sys2Proof.Machine.execCmpZp a s
  | .cmpZpx a => Sys2Proof.Machine.execCmpZpx a s
  | .cmpAbs w => Sys2Proof.Machine.execCmpAbs w s
  | .cmpAbx w => Sys2Proof.Machine.execCmpAbx w s
  | .cmpAby w => Sys2Proof.Machine.execCmpAby w s
  | .cmpIzx a => Sys2Proof.Machine.execCmpIzx a s
  | .cmpIzy a => Sys2Proof.Machine.execCmpIzy a s
  | .cpxImm v => Sys2Proof.Machine.execCpxImm v s
  | .cpxZp a => Sys2Proof.Machine.execCpxZp a s
  | .cpxAbs w => Sys2Proof.Machine.execCpxAbs w s
  | .cpyImm v => Sys2Proof.Machine.execCpyImm v s
  | .cpyZp a => Sys2Proof.Machine.execCpyZp a s
  | .cpyAbs w => Sys2Proof.Machine.execCpyAbs w s
  | .bitZp a => Sys2Proof.Machine.execBitZp a s
  | .bitAbs w => Sys2Proof.Machine.execBitAbs w s
  | .incZp a => Sys2Proof.Machine.execIncZp a s
  | .incZpx a => Sys2Proof.Machine.execIncZpx a s
  | .incAbs w => Sys2Proof.Machine.execIncAbs w s
  | .incAbx w => Sys2Proof.Machine.execIncAbx w s
  | .decZp a => Sys2Proof.Machine.execDecZp a s
  | .decZpx a => Sys2Proof.Machine.execDecZpx a s
  | .decAbs w => Sys2Proof.Machine.execDecAbs w s
  | .decAbx w => Sys2Proof.Machine.execDecAbx w s
  | .inx => Sys2Proof.Machine.execInx s
  | .iny => Sys2Proof.Machine.execIny s
  | .dex => Sys2Proof.Machine.execDex s
  | .dey => Sys2Proof.Machine.execDey s
  | .aslAcc => Sys2Proof.Machine.execAslAcc s
  | .aslZp a => Sys2Proof.Machine.execAslZp a s
  | .aslZpx a => Sys2Proof.Machine.execAslZpx a s
  | .aslAbs w => Sys2Proof.Machine.execAslAbs w s
  | .aslAbx w => Sys2Proof.Machine.execAslAbx w s
  | .lsrAcc => Sys2Proof.Machine.execLsrAcc s
  | .lsrZp a => Sys2Proof.Machine.execLsrZp a s
  | .lsrZpx a => Sys2Proof.Machine.execLsrZpx a s
  | .lsrAbs w => Sys2Proof.Machine.execLsrAbs w s
  | .lsrAbx w => Sys2Proof.Machine.execLsrAbx w s
  | .rolAcc => Sys2Proof.Machine.execRolAcc s
  | .rolZp a => Sys2Proof.Machine.execRolZp a s
  | .rolZpx a => Sys2Proof.Machine.execRolZpx a s
  | .rolAbs w => Sys2Proof.Machine.execRolAbs w s
  | .rolAbx w => Sys2Proof.Machine.execRolAbx w s
  | .rorAcc => Sys2Proof.Machine.execRorAcc s
  | .rorZp a => Sys2Proof.Machine.execRorZp a s
  | .rorZpx a => Sys2Proof.Machine.execRorZpx a s
  | .rorAbs w => Sys2Proof.Machine.execRorAbs w s
  | .rorAbx w => Sys2Proof.Machine.execRorAbx w s
  | .bcc off => Sys2Proof.Machine.execBcc off s
  | .bcs off => Sys2Proof.Machine.execBcs off s
  | .beq off => Sys2Proof.Machine.execBeq off s
  | .bne off => Sys2Proof.Machine.execBne off s
  | .bmi off => Sys2Proof.Machine.execBmi off s
  | .bpl off => Sys2Proof.Machine.execBpl off s
  | .bvc off => Sys2Proof.Machine.execBvc off s
  | .bvs off => Sys2Proof.Machine.execBvs off s
  | .jmpAbs w => Sys2Proof.Machine.execJmpAbs w s
  | .jmpInd w => Sys2Proof.Machine.execJmpInd w s
  | .jsr w => Sys2Proof.Machine.execJsr w s
  | .rts => Sys2Proof.Machine.execRts s
  | .pha => Sys2Proof.Machine.execPha s
  | .pla => Sys2Proof.Machine.execPla s
  | .php => Sys2Proof.Machine.execPhp s
  | .plp => Sys2Proof.Machine.execPlp s
  | .clc => Sys2Proof.Machine.execClc s
  | .sec => Sys2Proof.Machine.execSec s
  | .cli => Sys2Proof.Machine.execCli s
  | .sei => Sys2Proof.Machine.execSei s
  | .cld => Sys2Proof.Machine.execCld s
  | .sed => Sys2Proof.Machine.execSed s
  | .clv => Sys2Proof.Machine.execClv s
  | .nop => Sys2Proof.Machine.execNop s
  | .brk => Sys2Proof.Machine.execBrk s
  | .rti => Sys2Proof.Machine.execRti s
  | .illegal opcode => Sys2Proof.Machine.execIllegal opcode s

end Sys2Proof.Machine
end

