-- ==== Sys2Proof/WellFormed.lean ====
section
/-! DEFINITION. Which terms of Instr are instructions: every operand byte of the 151 instruction rows may hold any value
(30_encoding R70, R93); `illegal` holds one of the 105 opcode bytes of R92 and no other. -/

namespace Sys2Proof

/-- The 105 opcode bytes with no descriptor (R92), one line per high nibble. -/
def illegalOpcodes : List Nat :=
  [0x02, 0x03, 0x04, 0x07, 0x0B, 0x0C, 0x0F]
  ++ [0x12, 0x13, 0x14, 0x17, 0x1A, 0x1B, 0x1C, 0x1F]
  ++ [0x22, 0x23, 0x27, 0x2B, 0x2F]
  ++ [0x32, 0x33, 0x34, 0x37, 0x3A, 0x3B, 0x3C, 0x3F]
  ++ [0x42, 0x43, 0x44, 0x47, 0x4B, 0x4F]
  ++ [0x52, 0x53, 0x54, 0x57, 0x5A, 0x5B, 0x5C, 0x5F]
  ++ [0x62, 0x63, 0x64, 0x67, 0x6B, 0x6F]
  ++ [0x72, 0x73, 0x74, 0x77, 0x7A, 0x7B, 0x7C, 0x7F]
  ++ [0x80, 0x82, 0x83, 0x87, 0x89, 0x8B, 0x8F]
  ++ [0x92, 0x93, 0x97, 0x9B, 0x9C, 0x9E, 0x9F]
  ++ [0xA3, 0xA7, 0xAB, 0xAF]
  ++ [0xB2, 0xB3, 0xB7, 0xBB, 0xBF]
  ++ [0xC2, 0xC3, 0xC7, 0xCB, 0xCF]
  ++ [0xD2, 0xD3, 0xD4, 0xD7, 0xDA, 0xDB, 0xDC, 0xDF]
  ++ [0xE2, 0xE3, 0xE7, 0xEB, 0xEF]
  ++ [0xF2, 0xF3, 0xF4, 0xF7, 0xFA, 0xFB, 0xFC, 0xFF]

/-- Whether a byte has no descriptor (R92). -/
def isIllegalOpcode (b : Byte) : Bool := illegalOpcodes.contains b.toNat

/-- Well-formed instructions: the one check is that `illegal` holds an illegal byte. -/
def Instr.wf : Instr → Bool
  | .illegal opcode => isIllegalOpcode opcode
  | .ldaImm _ => true
  | .ldaZp _ => true
  | .ldaZpx _ => true
  | .ldaAbs _ => true
  | .ldaAbx _ => true
  | .ldaAby _ => true
  | .ldaIzx _ => true
  | .ldaIzy _ => true
  | .ldxImm _ => true
  | .ldxZp _ => true
  | .ldxZpy _ => true
  | .ldxAbs _ => true
  | .ldxAby _ => true
  | .ldyImm _ => true
  | .ldyZp _ => true
  | .ldyZpx _ => true
  | .ldyAbs _ => true
  | .ldyAbx _ => true
  | .staZp _ => true
  | .staZpx _ => true
  | .staAbs _ => true
  | .staAbx _ => true
  | .staAby _ => true
  | .staIzx _ => true
  | .staIzy _ => true
  | .stxZp _ => true
  | .stxZpy _ => true
  | .stxAbs _ => true
  | .styZp _ => true
  | .styZpx _ => true
  | .styAbs _ => true
  | .tax => true
  | .tay => true
  | .txa => true
  | .tya => true
  | .tsx => true
  | .txs => true
  | .adcImm _ => true
  | .adcZp _ => true
  | .adcZpx _ => true
  | .adcAbs _ => true
  | .adcAbx _ => true
  | .adcAby _ => true
  | .adcIzx _ => true
  | .adcIzy _ => true
  | .sbcImm _ => true
  | .sbcZp _ => true
  | .sbcZpx _ => true
  | .sbcAbs _ => true
  | .sbcAbx _ => true
  | .sbcAby _ => true
  | .sbcIzx _ => true
  | .sbcIzy _ => true
  | .andImm _ => true
  | .andZp _ => true
  | .andZpx _ => true
  | .andAbs _ => true
  | .andAbx _ => true
  | .andAby _ => true
  | .andIzx _ => true
  | .andIzy _ => true
  | .oraImm _ => true
  | .oraZp _ => true
  | .oraZpx _ => true
  | .oraAbs _ => true
  | .oraAbx _ => true
  | .oraAby _ => true
  | .oraIzx _ => true
  | .oraIzy _ => true
  | .eorImm _ => true
  | .eorZp _ => true
  | .eorZpx _ => true
  | .eorAbs _ => true
  | .eorAbx _ => true
  | .eorAby _ => true
  | .eorIzx _ => true
  | .eorIzy _ => true
  | .cmpImm _ => true
  | .cmpZp _ => true
  | .cmpZpx _ => true
  | .cmpAbs _ => true
  | .cmpAbx _ => true
  | .cmpAby _ => true
  | .cmpIzx _ => true
  | .cmpIzy _ => true
  | .cpxImm _ => true
  | .cpxZp _ => true
  | .cpxAbs _ => true
  | .cpyImm _ => true
  | .cpyZp _ => true
  | .cpyAbs _ => true
  | .bitZp _ => true
  | .bitAbs _ => true
  | .incZp _ => true
  | .incZpx _ => true
  | .incAbs _ => true
  | .incAbx _ => true
  | .decZp _ => true
  | .decZpx _ => true
  | .decAbs _ => true
  | .decAbx _ => true
  | .inx => true
  | .iny => true
  | .dex => true
  | .dey => true
  | .aslAcc => true
  | .aslZp _ => true
  | .aslZpx _ => true
  | .aslAbs _ => true
  | .aslAbx _ => true
  | .lsrAcc => true
  | .lsrZp _ => true
  | .lsrZpx _ => true
  | .lsrAbs _ => true
  | .lsrAbx _ => true
  | .rolAcc => true
  | .rolZp _ => true
  | .rolZpx _ => true
  | .rolAbs _ => true
  | .rolAbx _ => true
  | .rorAcc => true
  | .rorZp _ => true
  | .rorZpx _ => true
  | .rorAbs _ => true
  | .rorAbx _ => true
  | .bcc _ => true
  | .bcs _ => true
  | .beq _ => true
  | .bne _ => true
  | .bmi _ => true
  | .bpl _ => true
  | .bvc _ => true
  | .bvs _ => true
  | .jmpAbs _ => true
  | .jmpInd _ => true
  | .jsr _ => true
  | .rts => true
  | .pha => true
  | .pla => true
  | .php => true
  | .plp => true
  | .clc => true
  | .sec => true
  | .cli => true
  | .sei => true
  | .cld => true
  | .sed => true
  | .clv => true
  | .nop => true
  | .brk => true
  | .rti => true

end Sys2Proof
end

