-- ==== Sys2Proof/Decode.lean ====
section
/-! DEFINITION. The decoder and the encoder (30_encoding R70 to R73, R89, R90, R92). Decoding is a flat lookup on the
opcode byte; a byte with no entry decodes to `illegal`, which the step turns into the fault IllegalOpcode (R92). -/

namespace Sys2Proof

/-! ## The decoder -/

/-- The instruction of an opcode byte and the two bytes that may follow it (R71, R90): an entry takes as many of them as
its mode has operand bytes, the low byte of an address first (R42, R73). -/
def decodeOpcode (opcode b1 b2 : Byte) : Instr :=
  match opcode.toNat with
  | 0x00 => .brk
  | 0x01 => .oraIzx b1
  | 0x05 => .oraZp b1
  | 0x06 => .aslZp b1
  | 0x08 => .php
  | 0x09 => .oraImm b1
  | 0x0A => .aslAcc
  | 0x0D => .oraAbs (word b1 b2)
  | 0x0E => .aslAbs (word b1 b2)
  | 0x10 => .bpl b1
  | 0x11 => .oraIzy b1
  | 0x15 => .oraZpx b1
  | 0x16 => .aslZpx b1
  | 0x18 => .clc
  | 0x19 => .oraAby (word b1 b2)
  | 0x1D => .oraAbx (word b1 b2)
  | 0x1E => .aslAbx (word b1 b2)
  | 0x20 => .jsr (word b1 b2)
  | 0x21 => .andIzx b1
  | 0x24 => .bitZp b1
  | 0x25 => .andZp b1
  | 0x26 => .rolZp b1
  | 0x28 => .plp
  | 0x29 => .andImm b1
  | 0x2A => .rolAcc
  | 0x2C => .bitAbs (word b1 b2)
  | 0x2D => .andAbs (word b1 b2)
  | 0x2E => .rolAbs (word b1 b2)
  | 0x30 => .bmi b1
  | 0x31 => .andIzy b1
  | 0x35 => .andZpx b1
  | 0x36 => .rolZpx b1
  | 0x38 => .sec
  | 0x39 => .andAby (word b1 b2)
  | 0x3D => .andAbx (word b1 b2)
  | 0x3E => .rolAbx (word b1 b2)
  | 0x40 => .rti
  | 0x41 => .eorIzx b1
  | 0x45 => .eorZp b1
  | 0x46 => .lsrZp b1
  | 0x48 => .pha
  | 0x49 => .eorImm b1
  | 0x4A => .lsrAcc
  | 0x4C => .jmpAbs (word b1 b2)
  | 0x4D => .eorAbs (word b1 b2)
  | 0x4E => .lsrAbs (word b1 b2)
  | 0x50 => .bvc b1
  | 0x51 => .eorIzy b1
  | 0x55 => .eorZpx b1
  | 0x56 => .lsrZpx b1
  | 0x58 => .cli
  | 0x59 => .eorAby (word b1 b2)
  | 0x5D => .eorAbx (word b1 b2)
  | 0x5E => .lsrAbx (word b1 b2)
  | 0x60 => .rts
  | 0x61 => .adcIzx b1
  | 0x65 => .adcZp b1
  | 0x66 => .rorZp b1
  | 0x68 => .pla
  | 0x69 => .adcImm b1
  | 0x6A => .rorAcc
  | 0x6C => .jmpInd (word b1 b2)
  | 0x6D => .adcAbs (word b1 b2)
  | 0x6E => .rorAbs (word b1 b2)
  | 0x70 => .bvs b1
  | 0x71 => .adcIzy b1
  | 0x75 => .adcZpx b1
  | 0x76 => .rorZpx b1
  | 0x78 => .sei
  | 0x79 => .adcAby (word b1 b2)
  | 0x7D => .adcAbx (word b1 b2)
  | 0x7E => .rorAbx (word b1 b2)
  | 0x81 => .staIzx b1
  | 0x84 => .styZp b1
  | 0x85 => .staZp b1
  | 0x86 => .stxZp b1
  | 0x88 => .dey
  | 0x8A => .txa
  | 0x8C => .styAbs (word b1 b2)
  | 0x8D => .staAbs (word b1 b2)
  | 0x8E => .stxAbs (word b1 b2)
  | 0x90 => .bcc b1
  | 0x91 => .staIzy b1
  | 0x94 => .styZpx b1
  | 0x95 => .staZpx b1
  | 0x96 => .stxZpy b1
  | 0x98 => .tya
  | 0x99 => .staAby (word b1 b2)
  | 0x9A => .txs
  | 0x9D => .staAbx (word b1 b2)
  | 0xA0 => .ldyImm b1
  | 0xA1 => .ldaIzx b1
  | 0xA2 => .ldxImm b1
  | 0xA4 => .ldyZp b1
  | 0xA5 => .ldaZp b1
  | 0xA6 => .ldxZp b1
  | 0xA8 => .tay
  | 0xA9 => .ldaImm b1
  | 0xAA => .tax
  | 0xAC => .ldyAbs (word b1 b2)
  | 0xAD => .ldaAbs (word b1 b2)
  | 0xAE => .ldxAbs (word b1 b2)
  | 0xB0 => .bcs b1
  | 0xB1 => .ldaIzy b1
  | 0xB4 => .ldyZpx b1
  | 0xB5 => .ldaZpx b1
  | 0xB6 => .ldxZpy b1
  | 0xB8 => .clv
  | 0xB9 => .ldaAby (word b1 b2)
  | 0xBA => .tsx
  | 0xBC => .ldyAbx (word b1 b2)
  | 0xBD => .ldaAbx (word b1 b2)
  | 0xBE => .ldxAby (word b1 b2)
  | 0xC0 => .cpyImm b1
  | 0xC1 => .cmpIzx b1
  | 0xC4 => .cpyZp b1
  | 0xC5 => .cmpZp b1
  | 0xC6 => .decZp b1
  | 0xC8 => .iny
  | 0xC9 => .cmpImm b1
  | 0xCA => .dex
  | 0xCC => .cpyAbs (word b1 b2)
  | 0xCD => .cmpAbs (word b1 b2)
  | 0xCE => .decAbs (word b1 b2)
  | 0xD0 => .bne b1
  | 0xD1 => .cmpIzy b1
  | 0xD5 => .cmpZpx b1
  | 0xD6 => .decZpx b1
  | 0xD8 => .cld
  | 0xD9 => .cmpAby (word b1 b2)
  | 0xDD => .cmpAbx (word b1 b2)
  | 0xDE => .decAbx (word b1 b2)
  | 0xE0 => .cpxImm b1
  | 0xE1 => .sbcIzx b1
  | 0xE4 => .cpxZp b1
  | 0xE5 => .sbcZp b1
  | 0xE6 => .incZp b1
  | 0xE8 => .inx
  | 0xE9 => .sbcImm b1
  | 0xEA => .nop
  | 0xEC => .cpxAbs (word b1 b2)
  | 0xED => .sbcAbs (word b1 b2)
  | 0xEE => .incAbs (word b1 b2)
  | 0xF0 => .beq b1
  | 0xF1 => .sbcIzy b1
  | 0xF5 => .sbcZpx b1
  | 0xF6 => .incZpx b1
  | 0xF8 => .sed
  | 0xF9 => .sbcAby (word b1 b2)
  | 0xFD => .sbcAbx (word b1 b2)
  | 0xFE => .incAbx (word b1 b2)
  | _ => .illegal opcode

/-! ## The opcode map read from the instruction's side -/

/-- The descriptor of an instruction (R71): its opcode byte, its base cycle cost (R89) and its mnemonic with the
operand. -/
structure Descriptor where
  opcode     : Byte
  baseCycles : Nat
  op         : Op
  deriving DecidableEq, Repr

/-- The map of R90, one line per row: opcode byte, base cycles, mnemonic and mode. An illegal byte adds no cycles. -/
def descriptor : Instr → Descriptor
  | .ldaImm v => ⟨0xA9#8, 2, .lda (.imm v)⟩
  | .ldaZp a => ⟨0xA5#8, 3, .lda (.mem (.zp a))⟩
  | .ldaZpx a => ⟨0xB5#8, 4, .lda (.mem (.zpx a))⟩
  | .ldaAbs w => ⟨0xAD#8, 4, .lda (.mem (.abs w))⟩
  | .ldaAbx w => ⟨0xBD#8, 4, .lda (.mem (.abx w))⟩
  | .ldaAby w => ⟨0xB9#8, 4, .lda (.mem (.aby w))⟩
  | .ldaIzx a => ⟨0xA1#8, 6, .lda (.mem (.izx a))⟩
  | .ldaIzy a => ⟨0xB1#8, 5, .lda (.mem (.izy a))⟩
  | .ldxImm v => ⟨0xA2#8, 2, .ldx (.imm v)⟩
  | .ldxZp a => ⟨0xA6#8, 3, .ldx (.mem (.zp a))⟩
  | .ldxZpy a => ⟨0xB6#8, 4, .ldx (.mem (.zpy a))⟩
  | .ldxAbs w => ⟨0xAE#8, 4, .ldx (.mem (.abs w))⟩
  | .ldxAby w => ⟨0xBE#8, 4, .ldx (.mem (.aby w))⟩
  | .ldyImm v => ⟨0xA0#8, 2, .ldy (.imm v)⟩
  | .ldyZp a => ⟨0xA4#8, 3, .ldy (.mem (.zp a))⟩
  | .ldyZpx a => ⟨0xB4#8, 4, .ldy (.mem (.zpx a))⟩
  | .ldyAbs w => ⟨0xAC#8, 4, .ldy (.mem (.abs w))⟩
  | .ldyAbx w => ⟨0xBC#8, 4, .ldy (.mem (.abx w))⟩
  | .staZp a => ⟨0x85#8, 3, .sta (.zp a)⟩
  | .staZpx a => ⟨0x95#8, 4, .sta (.zpx a)⟩
  | .staAbs w => ⟨0x8D#8, 4, .sta (.abs w)⟩
  | .staAbx w => ⟨0x9D#8, 5, .sta (.abx w)⟩
  | .staAby w => ⟨0x99#8, 5, .sta (.aby w)⟩
  | .staIzx a => ⟨0x81#8, 6, .sta (.izx a)⟩
  | .staIzy a => ⟨0x91#8, 6, .sta (.izy a)⟩
  | .stxZp a => ⟨0x86#8, 3, .stx (.zp a)⟩
  | .stxZpy a => ⟨0x96#8, 4, .stx (.zpy a)⟩
  | .stxAbs w => ⟨0x8E#8, 4, .stx (.abs w)⟩
  | .styZp a => ⟨0x84#8, 3, .sty (.zp a)⟩
  | .styZpx a => ⟨0x94#8, 4, .sty (.zpx a)⟩
  | .styAbs w => ⟨0x8C#8, 4, .sty (.abs w)⟩
  | .tax => ⟨0xAA#8, 2, .tax⟩
  | .tay => ⟨0xA8#8, 2, .tay⟩
  | .txa => ⟨0x8A#8, 2, .txa⟩
  | .tya => ⟨0x98#8, 2, .tya⟩
  | .tsx => ⟨0xBA#8, 2, .tsx⟩
  | .txs => ⟨0x9A#8, 2, .txs⟩
  | .adcImm v => ⟨0x69#8, 2, .adc (.imm v)⟩
  | .adcZp a => ⟨0x65#8, 3, .adc (.mem (.zp a))⟩
  | .adcZpx a => ⟨0x75#8, 4, .adc (.mem (.zpx a))⟩
  | .adcAbs w => ⟨0x6D#8, 4, .adc (.mem (.abs w))⟩
  | .adcAbx w => ⟨0x7D#8, 4, .adc (.mem (.abx w))⟩
  | .adcAby w => ⟨0x79#8, 4, .adc (.mem (.aby w))⟩
  | .adcIzx a => ⟨0x61#8, 6, .adc (.mem (.izx a))⟩
  | .adcIzy a => ⟨0x71#8, 5, .adc (.mem (.izy a))⟩
  | .sbcImm v => ⟨0xE9#8, 2, .sbc (.imm v)⟩
  | .sbcZp a => ⟨0xE5#8, 3, .sbc (.mem (.zp a))⟩
  | .sbcZpx a => ⟨0xF5#8, 4, .sbc (.mem (.zpx a))⟩
  | .sbcAbs w => ⟨0xED#8, 4, .sbc (.mem (.abs w))⟩
  | .sbcAbx w => ⟨0xFD#8, 4, .sbc (.mem (.abx w))⟩
  | .sbcAby w => ⟨0xF9#8, 4, .sbc (.mem (.aby w))⟩
  | .sbcIzx a => ⟨0xE1#8, 6, .sbc (.mem (.izx a))⟩
  | .sbcIzy a => ⟨0xF1#8, 5, .sbc (.mem (.izy a))⟩
  | .andImm v => ⟨0x29#8, 2, .and (.imm v)⟩
  | .andZp a => ⟨0x25#8, 3, .and (.mem (.zp a))⟩
  | .andZpx a => ⟨0x35#8, 4, .and (.mem (.zpx a))⟩
  | .andAbs w => ⟨0x2D#8, 4, .and (.mem (.abs w))⟩
  | .andAbx w => ⟨0x3D#8, 4, .and (.mem (.abx w))⟩
  | .andAby w => ⟨0x39#8, 4, .and (.mem (.aby w))⟩
  | .andIzx a => ⟨0x21#8, 6, .and (.mem (.izx a))⟩
  | .andIzy a => ⟨0x31#8, 5, .and (.mem (.izy a))⟩
  | .oraImm v => ⟨0x09#8, 2, .ora (.imm v)⟩
  | .oraZp a => ⟨0x05#8, 3, .ora (.mem (.zp a))⟩
  | .oraZpx a => ⟨0x15#8, 4, .ora (.mem (.zpx a))⟩
  | .oraAbs w => ⟨0x0D#8, 4, .ora (.mem (.abs w))⟩
  | .oraAbx w => ⟨0x1D#8, 4, .ora (.mem (.abx w))⟩
  | .oraAby w => ⟨0x19#8, 4, .ora (.mem (.aby w))⟩
  | .oraIzx a => ⟨0x01#8, 6, .ora (.mem (.izx a))⟩
  | .oraIzy a => ⟨0x11#8, 5, .ora (.mem (.izy a))⟩
  | .eorImm v => ⟨0x49#8, 2, .eor (.imm v)⟩
  | .eorZp a => ⟨0x45#8, 3, .eor (.mem (.zp a))⟩
  | .eorZpx a => ⟨0x55#8, 4, .eor (.mem (.zpx a))⟩
  | .eorAbs w => ⟨0x4D#8, 4, .eor (.mem (.abs w))⟩
  | .eorAbx w => ⟨0x5D#8, 4, .eor (.mem (.abx w))⟩
  | .eorAby w => ⟨0x59#8, 4, .eor (.mem (.aby w))⟩
  | .eorIzx a => ⟨0x41#8, 6, .eor (.mem (.izx a))⟩
  | .eorIzy a => ⟨0x51#8, 5, .eor (.mem (.izy a))⟩
  | .cmpImm v => ⟨0xC9#8, 2, .cmp (.imm v)⟩
  | .cmpZp a => ⟨0xC5#8, 3, .cmp (.mem (.zp a))⟩
  | .cmpZpx a => ⟨0xD5#8, 4, .cmp (.mem (.zpx a))⟩
  | .cmpAbs w => ⟨0xCD#8, 4, .cmp (.mem (.abs w))⟩
  | .cmpAbx w => ⟨0xDD#8, 4, .cmp (.mem (.abx w))⟩
  | .cmpAby w => ⟨0xD9#8, 4, .cmp (.mem (.aby w))⟩
  | .cmpIzx a => ⟨0xC1#8, 6, .cmp (.mem (.izx a))⟩
  | .cmpIzy a => ⟨0xD1#8, 5, .cmp (.mem (.izy a))⟩
  | .cpxImm v => ⟨0xE0#8, 2, .cpx (.imm v)⟩
  | .cpxZp a => ⟨0xE4#8, 3, .cpx (.mem (.zp a))⟩
  | .cpxAbs w => ⟨0xEC#8, 4, .cpx (.mem (.abs w))⟩
  | .cpyImm v => ⟨0xC0#8, 2, .cpy (.imm v)⟩
  | .cpyZp a => ⟨0xC4#8, 3, .cpy (.mem (.zp a))⟩
  | .cpyAbs w => ⟨0xCC#8, 4, .cpy (.mem (.abs w))⟩
  | .bitZp a => ⟨0x24#8, 3, .bit (.zp a)⟩
  | .bitAbs w => ⟨0x2C#8, 4, .bit (.abs w)⟩
  | .incZp a => ⟨0xE6#8, 5, .inc (.zp a)⟩
  | .incZpx a => ⟨0xF6#8, 6, .inc (.zpx a)⟩
  | .incAbs w => ⟨0xEE#8, 6, .inc (.abs w)⟩
  | .incAbx w => ⟨0xFE#8, 7, .inc (.abx w)⟩
  | .decZp a => ⟨0xC6#8, 5, .dec (.zp a)⟩
  | .decZpx a => ⟨0xD6#8, 6, .dec (.zpx a)⟩
  | .decAbs w => ⟨0xCE#8, 6, .dec (.abs w)⟩
  | .decAbx w => ⟨0xDE#8, 7, .dec (.abx w)⟩
  | .inx => ⟨0xE8#8, 2, .inx⟩
  | .iny => ⟨0xC8#8, 2, .iny⟩
  | .dex => ⟨0xCA#8, 2, .dex⟩
  | .dey => ⟨0x88#8, 2, .dey⟩
  | .aslAcc => ⟨0x0A#8, 2, .asl .acc⟩
  | .aslZp a => ⟨0x06#8, 5, .asl (.mem (.zp a))⟩
  | .aslZpx a => ⟨0x16#8, 6, .asl (.mem (.zpx a))⟩
  | .aslAbs w => ⟨0x0E#8, 6, .asl (.mem (.abs w))⟩
  | .aslAbx w => ⟨0x1E#8, 7, .asl (.mem (.abx w))⟩
  | .lsrAcc => ⟨0x4A#8, 2, .lsr .acc⟩
  | .lsrZp a => ⟨0x46#8, 5, .lsr (.mem (.zp a))⟩
  | .lsrZpx a => ⟨0x56#8, 6, .lsr (.mem (.zpx a))⟩
  | .lsrAbs w => ⟨0x4E#8, 6, .lsr (.mem (.abs w))⟩
  | .lsrAbx w => ⟨0x5E#8, 7, .lsr (.mem (.abx w))⟩
  | .rolAcc => ⟨0x2A#8, 2, .rol .acc⟩
  | .rolZp a => ⟨0x26#8, 5, .rol (.mem (.zp a))⟩
  | .rolZpx a => ⟨0x36#8, 6, .rol (.mem (.zpx a))⟩
  | .rolAbs w => ⟨0x2E#8, 6, .rol (.mem (.abs w))⟩
  | .rolAbx w => ⟨0x3E#8, 7, .rol (.mem (.abx w))⟩
  | .rorAcc => ⟨0x6A#8, 2, .ror .acc⟩
  | .rorZp a => ⟨0x66#8, 5, .ror (.mem (.zp a))⟩
  | .rorZpx a => ⟨0x76#8, 6, .ror (.mem (.zpx a))⟩
  | .rorAbs w => ⟨0x6E#8, 6, .ror (.mem (.abs w))⟩
  | .rorAbx w => ⟨0x7E#8, 7, .ror (.mem (.abx w))⟩
  | .bcc off => ⟨0x90#8, 2, .bcc off⟩
  | .bcs off => ⟨0xB0#8, 2, .bcs off⟩
  | .beq off => ⟨0xF0#8, 2, .beq off⟩
  | .bne off => ⟨0xD0#8, 2, .bne off⟩
  | .bmi off => ⟨0x30#8, 2, .bmi off⟩
  | .bpl off => ⟨0x10#8, 2, .bpl off⟩
  | .bvc off => ⟨0x50#8, 2, .bvc off⟩
  | .bvs off => ⟨0x70#8, 2, .bvs off⟩
  | .jmpAbs w => ⟨0x4C#8, 3, .jmp (.abs w)⟩
  | .jmpInd w => ⟨0x6C#8, 5, .jmp (.ind w)⟩
  | .jsr w => ⟨0x20#8, 6, .jsr w⟩
  | .rts => ⟨0x60#8, 6, .rts⟩
  | .pha => ⟨0x48#8, 3, .pha⟩
  | .pla => ⟨0x68#8, 4, .pla⟩
  | .php => ⟨0x08#8, 3, .php⟩
  | .plp => ⟨0x28#8, 4, .plp⟩
  | .clc => ⟨0x18#8, 2, .clc⟩
  | .sec => ⟨0x38#8, 2, .sec⟩
  | .cli => ⟨0x58#8, 2, .cli⟩
  | .sei => ⟨0x78#8, 2, .sei⟩
  | .cld => ⟨0xD8#8, 2, .cld⟩
  | .sed => ⟨0xF8#8, 2, .sed⟩
  | .clv => ⟨0xB8#8, 2, .clv⟩
  | .nop => ⟨0xEA#8, 2, .nop⟩
  | .brk => ⟨0x00#8, 7, .brk⟩
  | .rti => ⟨0x40#8, 6, .rti⟩
  | .illegal opcode => ⟨opcode, 0, .illegal opcode⟩

/-- The opcode byte of an instruction. -/
def opcodeOf (i : Instr) : Byte := (descriptor i).opcode

/-- The base cycle cost of an instruction (R89). -/
def baseCycles (i : Instr) : Nat := (descriptor i).baseCycles

/-- The mnemonic of an instruction with its operand. -/
def opOf (i : Instr) : Op := (descriptor i).op

/-- The operand bytes of a data address, in the order they are fetched (R70, R73). -/
def memOperandBytes : MemOperand → List Byte
  | .zp a | .zpx a | .zpy a | .izx a | .izy a => [a]
  | .abs w | .abx w | .aby w => [lo w, hi w]

/-- The operand bytes of a reading instruction. -/
def sourceBytes : Source → List Byte
  | .imm v => [v]
  | .mem m => memOperandBytes m

/-- The operand bytes of a shift. -/
def targetBytes : Target → List Byte
  | .acc => []
  | .mem m => memOperandBytes m

/-- The operand bytes of an instruction (R70). BRK has none: the byte it skips is never fetched (R94). -/
def operandBytes : Op → List Byte
  | .lda src | .ldx src | .ldy src | .adc src | .sbc src | .and src | .ora src | .eor src
  | .cmp src | .cpx src | .cpy src => sourceBytes src
  | .sta m | .stx m | .sty m | .bit m | .inc m | .dec m => memOperandBytes m
  | .asl t | .lsr t | .rol t | .ror t => targetBytes t
  | .bcc off | .bcs off | .beq off | .bne off | .bmi off | .bpl off | .bvc off | .bvs off => [off]
  | .jmp (.abs w) | .jmp (.ind w) | .jsr w => [lo w, hi w]
  | .tax | .tay | .txa | .tya | .tsx | .txs | .inx | .iny | .dex | .dey | .rts | .pha | .pla | .php | .plp
  | .clc | .sec | .cli | .sei | .cld | .sed | .clv | .nop | .brk | .rti | .illegal _ => []

/-- How many operand bytes follow an opcode byte: a function of the opcode alone (R70, R94). -/
def operandCount (opcode : Byte) : Nat := (operandBytes (opOf (decodeOpcode opcode 0#8 0#8))).length

/-- The length of an instruction in bytes, 1 to 3 (R70). -/
def instrLength (i : Instr) : Nat := 1 + (operandBytes (opOf i)).length

/-! ## Byte lists -/

/-- The result of decoding a list of bytes: an instruction and the bytes after it, or why there is none. -/
inductive DecodeResult where
  | ok (i : Instr) (rest : List Byte)
  | noBytes                      -- the list is empty
  | truncated (opcode : Byte)    -- operand bytes of this opcode are missing
  deriving DecidableEq, Repr

/-- Decode the first instruction of a list of bytes (R70, R71). -/
def decode : List Byte → DecodeResult
  | [] => .noBytes
  | opcode :: rest =>
    match operandCount opcode, rest with
    | 0, _ => .ok (decodeOpcode opcode 0#8 0#8) rest
    | 1, b1 :: rest => .ok (decodeOpcode opcode b1 0#8) rest
    | 2, b1 :: b2 :: rest => .ok (decodeOpcode opcode b1 b2) rest
    | _, _ => .truncated opcode

/-- The bytes of an instruction (R70, R90): the opcode byte, then the operand bytes. -/
def encode (i : Instr) : List Byte := opcodeOf i :: operandBytes (opOf i)

/-! ## Instruction words as the opcode table numbers them -/

/-- Byte `k` of an instruction given as one number of `nbits` bits, bit 0 the least significant of the first byte. -/
def tableByte (nbits w k : Nat) : Byte := BitVec.ofNat 8 ((w % 2 ^ nbits) / 256 ^ k)

/-- The three bytes of an instruction given as one number: every bit above `nbits` is 0. -/
def tableBytes (nbits w : Nat) : List Byte := [tableByte nbits w 0, tableByte nbits w 1, tableByte nbits w 2]

/-- The instruction the decoder reads from a row's bits. -/
def decodeTableWord (nbits w : Nat) : Option Instr :=
  match decode (tableBytes nbits w) with
  | .ok i _ => some i
  | .noBytes => none
  | .truncated _ => none

end Sys2Proof
end

