-- ==== Sys2Proof/Machine/Fetch.lean ====
section
/-! DEFINITION. Fetching an instruction (30_encoding R72, R73), the PPU's catching up at the end of a step (R72), and
placing bytes where the machine fetches them (for withFetchWord, Step.lean). -/

namespace Sys2Proof.Machine

/-- `Fetch8()` (R73): an ordinary bus read at PC, then PC + 1. -/
def fetch8 (s : State) : Res Byte := (busRead s.pc s).bind fun b s => .ok b (s.setPC (s.pc + 1#16))

/-- `n` fetches in a row: the operand bytes, in address order (R73). -/
def fetchBytes : Nat → State → Res (List Byte)
  | 0, s => .ok [] s
  | n + 1, s => (fetch8 s).bind fun b s => (fetchBytes n s).bind fun bs s => .ok (b :: bs) s

/-- The opening of an instruction step (R72): the opcode, the base cycle cost, the operand bytes. Every rule that has
operand bytes fetches all of them before its other accesses, so fetching them here keeps the order (log entry 6). -/
def fetchInstr (s : State) : Res Instr :=
  (fetch8 s).bind fun opcode s =>
  (fetchBytes (operandCount opcode) (s.addCycles (baseCycles (decodeOpcode opcode 0#8 0#8)))).bind fun bs s =>
  .ok (decodeOpcode opcode (bs.getD 0 0#8) (bs.getD 1 0#8)) s

/-- The closing of an instruction step that began at cycle count `c0` (R72): the PPU advances 3 dots per cycle added. -/
def catchUp (c0 : Nat) (s : State) : State := s.advancePpu (ppuRatio * (s.cycles - c0))

/-- `catchUp` on an outcome: a fault ends the step without it (R72, R200). -/
def closeStep (c0 : Nat) (r : StepOutcome) : StepOutcome :=
  match r with
  | .next s => .next (catchUp c0 s)
  | .fault f => .fault f
  | .refused e => .refused e

/-! ## Placing an instruction -/

/-- Whether a bus address is a byte of RAM or of PRG. -/
def holdsCode (a : Addr) : Bool := decide (a.toNat ≤ 0x1FFF) || decide (0x8000 ≤ a.toNat)

/-- Put a byte where a fetch at `a` finds it: in RAM, or in the cartridge image. -/
def placeByte (a : Addr) (v : Byte) (s : State) : State :=
  if a.toNat ≤ 0x1FFF then s.writeRam (ramIndex a) v
  else if 0x8000 ≤ a.toNat then
    { s with cart := { s.cart with prg := s.cart.prg.write (prgOffset s.cart.prgSize a) v } }
  else s

/-- Put bytes at consecutive addresses, modulo 65536. -/
def placeBytes : Addr → List Byte → State → State
  | _, [], s => s
  | a, b :: bs, s => placeBytes (a + 1#16) bs (placeByte a b s)

/-- A state that fetches its next instruction from three bytes of RAM or PRG: no fault recorded, no interrupt pending,
and PC at $0000 where the three bytes at PC are not all RAM or PRG (log entry 11). -/
def readyToFetch (s : State) : State :=
  { s with
    fault := none
    ppu := { s.ppu with nmiPending := false }
    pc := if holdsCode s.pc && holdsCode (s.pc + 1#16) && holdsCode (s.pc + 2#16) then s.pc else 0#16 }

end Sys2Proof.Machine
end

