-- ==== Sys2Proof/Machine/Step.lean ====
section
/-! DEFINITION. One step of the machine (00_scope R6), and placing an instruction where the next step fetches it. -/

namespace Sys2Proof.Machine

/-- One instruction followed by the PPU catching up (R6 (c), 30_encoding R72). -/
def instructionStep (s : State) : StepOutcome :=
  match fetchInstr s with
  | .ok i t => closeStep s.cycles (exec i t)
  | .fault f _ => .fault f

/-- One step (R6): stuck if a fault is recorded (R203); else NMI service if one is pending (R210); else one instruction. -/
def step (s : State) : Host.Outcome State Fault Refusal :=
  match s.fault with
  | some f => .fault f
  | none => if s.ppu.nmiPending then (nmiService s).outcome else instructionStep s

/-- The state with one instruction's bytes stored where its next step fetches them (log entries 2, 11). -/
def State.withFetchWord (s : State) (nbits w : Nat) : State :=
  placeBytes (readyToFetch s).pc (tableBytes nbits w) (readyToFetch s)

end Sys2Proof.Machine
end

