-- ==== Sys2Proof/Machine/Perform.lean ====
section
/-! DEFINITION. "Dispatch on mnemonic" (30_encoding R72): what an instruction does, given as its mnemonic and operand. exec
(Dispatch.lean) is the official meaning, row by row; this one keeps the state a fault was raised in, which the driver's
view of a faulted machine needs (Driver.lean). That the two agree is one of the obligations. -/

namespace Sys2Proof.Machine

/-- The rule of a mnemonic, run on its operand. -/
def runOp : Op → State → Res Unit
  | .lda src, s => runLda src s
  | .ldx src, s => runLdx src s
  | .ldy src, s => runLdy src s
  | .sta m, s => runSta m s
  | .stx m, s => runStx m s
  | .sty m, s => runSty m s
  | .tax, s => runTax s
  | .tay, s => runTay s
  | .txa, s => runTxa s
  | .tya, s => runTya s
  | .tsx, s => runTsx s
  | .txs, s => runTxs s
  | .adc src, s => runAdc src s
  | .sbc src, s => runSbc src s
  | .and src, s => runAnd src s
  | .ora src, s => runOra src s
  | .eor src, s => runEor src s
  | .cmp src, s => runCmp src s
  | .cpx src, s => runCpx src s
  | .cpy src, s => runCpy src s
  | .bit m, s => runBit m s
  | .inc m, s => runInc m s
  | .dec m, s => runDec m s
  | .inx, s => runInx s
  | .iny, s => runIny s
  | .dex, s => runDex s
  | .dey, s => runDey s
  | .asl t, s => runAsl t s
  | .lsr t, s => runLsr t s
  | .rol t, s => runRol t s
  | .ror t, s => runRor t s
  | .bcc off, s => runBcc off s
  | .bcs off, s => runBcs off s
  | .beq off, s => runBeq off s
  | .bne off, s => runBne off s
  | .bmi off, s => runBmi off s
  | .bpl off, s => runBpl off s
  | .bvc off, s => runBvc off s
  | .bvs off, s => runBvs off s
  | .jmp j, s => runJmp j s
  | .jsr w, s => runJsr w s
  | .rts, s => runRts s
  | .pha, s => runPha s
  | .pla, s => runPla s
  | .php, s => runPhp s
  | .plp, s => runPlp s
  | .clc, s => runClc s
  | .sec, s => runSec s
  | .cli, s => runCli s
  | .sei, s => runSei s
  | .cld, s => runCld s
  | .sed, s => runSed s
  | .clv, s => runClv s
  | .nop, s => runNop s
  | .brk, s => runBrk s
  | .rti, s => runRti s
  | .illegal opcode, s => runIllegal opcode s

end Sys2Proof.Machine
end

