-- ==== Sys2Proof/Machine/Driver.lean ====
section
/-! DEFINITION. The driver's side of the machine (70_reset_and_hazards R260): load, reset, step, run N steps, observe, frame
test (R266). Here a faulting step leaves a state: the fault is recorded, the changes made before it stay made (30_encoding
R72, 60_exceptions R200), and no later step changes anything (10_state R34, R203). -/

namespace Sys2Proof.Machine

/-- Load and reset (R260, R262): a start state, or the loader's refusal (R271). -/
def startMachine (image : List Byte) (cfg : Config) : Except FormatError State :=
  match loadCartridge image with
  | .ok c => .ok (State.resetWith c cfg)
  | .error e => .error e

/-- The instruction step with the state kept where it faults (R72). -/
def instructionRun (s : State) : Res Unit :=
  (fetchInstr s).bind fun i t => (runOp (opOf i) t).bind fun _ t => .ok () (catchUp s.cycles t)

/-- One step as the driver observes it (R6, R203, R260). -/
def driverStep (s : State) : State :=
  match s.fault with
  | some _ => s
  | none => if s.ppu.nmiPending then (nmiService s).state else (instructionRun s).state

/-- Run N steps (R7, R260); a faulted machine stays as it is. -/
def driverRun : Nat → State → State
  | 0, s => s
  | n + 1, s => driverRun n (driverStep s)

/-- The driver's frame test (R266): 29,781 cycles have passed since it last saw a complete frame. It reads `cycles` and
changes nothing. -/
def frameDue (since : Nat) (s : State) : Bool := decide (29781 ≤ s.cycles - since)

end Sys2Proof.Machine
end

