-- ==== Sys2Proof/Safety.lean ====
section
/-! DEFINITION. The terms claims are stated in: which bus accesses are legal, where the bytes of the machine are, which
registers, flags and bytes an instruction may change (10_state R13 to R20), the invariant of the state, and a safe run. -/

namespace Sys2Proof.Machine

/-! ## Legal accesses -/

/-- Whether `Rd(a)` completes (20_memory R44, R49, 60_exceptions R253): RAM, ports 2, 4 and 7, PRG, and the rest under the
policy `degrade`. -/
def busReadable (a : Addr) (s : State) : Bool :=
  if a.toNat ≤ 0x1FFF then true
  else if a.toNat ≤ 0x3FFF then portOf a == 2#3 || portOf a == 4#3 || portOf a == 7#3
  else if 0x8000 ≤ a.toNat then true
  else s.cfg.oorPolicy == .degrade

/-- Whether an OAM-DMA from page `v` completes (R50): a page of the PPU window never does, its port 0 rejecting reads. -/
def dmaReadable (v : Byte) (s : State) : Bool :=
  if v.toNat ≤ 0x1F then true
  else if v.toNat ≤ 0x3F then false
  else if 0x80 ≤ v.toNat then true
  else s.cfg.oorPolicy == .degrade

/-- Whether `Wr(a, v)` completes (R45, R48 to R50, R251, R253). -/
def busWritable (a : Addr) (v : Byte) (s : State) : Bool :=
  if a.toNat ≤ 0x1FFF then true
  else if a.toNat ≤ 0x3FFF then
    portOf a != 2#3 && (portOf a != 7#3 || decide (0x2000 ≤ s.ppu.vramAddr.toNat))
  else if a = 0x4014#16 then dmaReadable v s
  else if 0x8000 ≤ a.toNat then false
  else s.cfg.oorPolicy == .degrade

/-- Whether the operand of a reading instruction can be read (R86). -/
def sourceReadable (src : Source) (s : State) : Bool :=
  match src with
  | .imm _ => true
  | .mem m => busReadable (effectiveAddress m s) s

/-- Whether an address is outside the PPU window, so that reading it changes nothing (R51). -/
def outsidePpu (a : Addr) : Bool := decide (a.toNat ≤ 0x1FFF) || decide (0x4000 ≤ a.toNat)

/-- The byte a fetch at `a` would return, for the addresses whose read has no side effect and cannot fault: RAM and PRG. -/
def codeByte (a : Addr) (s : State) : Option Byte :=
  if a.toNat ≤ 0x1FFF then some (s.ram.read (ramIndex a))
  else if 0x8000 ≤ a.toNat then some (prgRead s.cart a)
  else none

/-- The bytes at consecutive addresses from `a` on, modulo 65536, are `bs`, all in RAM or PRG. -/
def codeAt (s : State) : Addr → List Byte → Bool
  | _, [] => true
  | a, b :: bs => codeByte a s == some b && codeAt s (a + 1#16) bs

/-! ## Where the bytes of the machine are -/

/-- A byte of one of the six stores (10_state R28 to R32). -/
inductive Place where
  | ram (k : Nat)
  | vram (k : Nat)
  | pal (k : Nat)
  | oam (k : Nat)
  | prg (k : Nat)
  | chr (k : Nat)
  deriving DecidableEq, Repr

/-- The byte at a place. -/
def State.byteAt (pl : Place) (s : State) : Byte :=
  match pl with
  | .ram k => s.ram.read k
  | .vram k => s.ppu.vram.read k
  | .pal k => s.ppu.pal.read k
  | .oam k => s.ppu.oam.read k
  | .prg k => s.cart.prg.read k
  | .chr k => s.cart.chr.read k

/-- Whether `Wr(a, v)` in state `s` may change the byte at a place (R45, R50, R245, R251). -/
def writeTouches (a : Addr) (s : State) (pl : Place) : Bool :=
  if a.toNat ≤ 0x1FFF then pl == .ram (ramIndex a)
  else if a.toNat ≤ 0x3FFF then
    if portOf a = 4#3 then pl == .oam s.ppu.oamAddr.toNat
    else if portOf a = 7#3 then
      if s.ppu.vramAddr.toNat ≤ 0x3EFF then pl == .vram (ntIndex s.cart.mirroring s.ppu.vramAddr)
      else pl == .pal (palIndex s.ppu.vramAddr)
    else false
  else if a = 0x4014#16 then
    match pl with
    | .oam k => decide (k < oamSize)
    | .ram _ | .vram _ | .pal _ | .prg _ | .chr _ => false
  else false

/-! ## What an instruction may change -/

/-- The four 8-bit registers other than P (10_state R13 to R16). -/
inductive Reg where
  | a | x | y | sp
  deriving DecidableEq, Repr

/-- The value of a register. -/
def State.reg (r : Reg) (s : State) : Byte :=
  match r with
  | .a => s.a
  | .x => s.x
  | .y => s.y
  | .sp => s.sp

/-- Which registers a mnemonic writes (R13 to R16). -/
def regsWritten : Op → List Reg
  | .lda _ | .txa | .tya | .adc _ | .sbc _ | .and _ | .ora _ | .eor _ => [.a]
  | .asl .acc | .lsr .acc | .rol .acc | .ror .acc => [.a]
  | .ldx _ | .tax | .tsx | .inx | .dex => [.x]
  | .ldy _ | .tay | .iny | .dey => [.y]
  | .pla => [.a, .sp]
  | .txs | .pha | .php | .plp | .jsr _ | .rts | .brk | .rti => [.sp]
  | .sta _ | .stx _ | .sty _ | .cmp _ | .cpx _ | .cpy _ | .bit _ | .inc _ | .dec _
  | .asl (.mem _) | .lsr (.mem _) | .rol (.mem _) | .ror (.mem _)
  | .bcc _ | .bcs _ | .beq _ | .bne _ | .bmi _ | .bpl _ | .bvc _ | .bvs _ | .jmp _
  | .clc | .sec | .cli | .sei | .cld | .sed | .clv | .nop | .illegal _ => []

/-- Which flags a mnemonic writes: the table of R20. -/
def flagsWritten : Op → List Flag
  | .lda _ | .ldx _ | .ldy _ | .tax | .tay | .txa | .tya | .tsx | .pla | .and _ | .ora _ | .eor _
  | .inc _ | .dec _ | .inx | .iny | .dex | .dey => [.zero, .negative]
  | .adc _ | .sbc _ => [.carry, .zero, .overflow, .negative]
  | .cmp _ | .cpx _ | .cpy _ | .asl _ | .lsr _ | .rol _ | .ror _ => [.carry, .zero, .negative]
  | .bit _ => [.zero, .overflow, .negative]
  | .clc | .sec => [.carry]
  | .cli | .sei | .brk => [.interruptDisable]
  | .cld | .sed => [.decimal]
  | .clv => [.overflow]
  | .plp | .rti => [.carry, .zero, .interruptDisable, .decimal, .brk, .unused, .overflow, .negative]
  | .sta _ | .stx _ | .sty _ | .txs | .pha | .php | .jmp _ | .jsr _ | .rts | .nop
  | .bcc _ | .bcs _ | .beq _ | .bne _ | .bmi _ | .bpl _ | .bvc _ | .bvs _ | .illegal _ => []

/-- Whether a mnemonic transfers control, that is, writes PC (10_state R17, 43_control_flow, R185, R186). -/
def transfersControl : Op → Bool
  | .bcc _ | .bcs _ | .beq _ | .bne _ | .bmi _ | .bpl _ | .bvc _ | .bvs _ | .jmp _ | .jsr _ | .rts | .brk | .rti => true
  | .lda _ | .ldx _ | .ldy _ | .sta _ | .stx _ | .sty _ | .tax | .tay | .txa | .tya | .tsx | .txs
  | .adc _ | .sbc _ | .and _ | .ora _ | .eor _ | .cmp _ | .cpx _ | .cpy _ | .bit _ | .inc _ | .dec _
  | .inx | .iny | .dex | .dey | .asl _ | .lsr _ | .rol _ | .ror _ | .pha | .pla | .php | .plp
  | .clc | .sec | .cli | .sei | .cld | .sed | .clv | .nop | .illegal _ => false

/-- The source operand of a mnemonic that reads one and stores nothing. -/
def readSource : Op → Option Source
  | .lda src | .ldx src | .ldy src | .adc src | .sbc src | .and src | .ora src | .eor src
  | .cmp src | .cpx src | .cpy src => some src
  | .bit m => some (.mem m)
  | .sta _ | .stx _ | .sty _ | .tax | .tay | .txa | .tya | .tsx | .txs | .inc _ | .dec _
  | .inx | .iny | .dex | .dey | .asl _ | .lsr _ | .rol _ | .ror _
  | .bcc _ | .bcs _ | .beq _ | .bne _ | .bmi _ | .bpl _ | .bvc _ | .bvs _ | .jmp _ | .jsr _ | .rts
  | .pha | .pla | .php | .plp | .clc | .sec | .cli | .sei | .cld | .sed | .clv | .nop | .brk | .rti | .illegal _ => none

/-- The register and the memory operand of a store. -/
def storeOf : Op → Option (Reg × MemOperand)
  | .sta m => some (.a, m)
  | .stx m => some (.x, m)
  | .sty m => some (.y, m)
  | .lda _ | .ldx _ | .ldy _ | .adc _ | .sbc _ | .and _ | .ora _ | .eor _ | .cmp _ | .cpx _ | .cpy _ | .bit _
  | .tax | .tay | .txa | .tya | .tsx | .txs | .inc _ | .dec _
  | .inx | .iny | .dex | .dey | .asl _ | .lsr _ | .rol _ | .ror _
  | .bcc _ | .bcs _ | .beq _ | .bne _ | .bmi _ | .bpl _ | .bvc _ | .bvs _ | .jmp _ | .jsr _ | .rts
  | .pha | .pla | .php | .plp | .clc | .sec | .cli | .sei | .cld | .sed | .clv | .nop | .brk | .rti | .illegal _ => none

/-- The memory operand of a read-modify-write instruction (R12). -/
def modifyOf : Op → Option MemOperand
  | .inc m | .dec m | .asl (.mem m) | .lsr (.mem m) | .rol (.mem m) | .ror (.mem m) => some m
  | .asl .acc | .lsr .acc | .rol .acc | .ror .acc
  | .lda _ | .ldx _ | .ldy _ | .adc _ | .sbc _ | .and _ | .ora _ | .eor _ | .cmp _ | .cpx _ | .cpy _ | .bit _
  | .sta _ | .stx _ | .sty _ | .tax | .tay | .txa | .tya | .tsx | .txs | .inx | .iny | .dex | .dey
  | .bcc _ | .bcs _ | .beq _ | .bne _ | .bmi _ | .bpl _ | .bvc _ | .bvs _ | .jmp _ | .jsr _ | .rts
  | .pha | .pla | .php | .plp | .clc | .sec | .cli | .sei | .cld | .sed | .clv | .nop | .brk | .rti | .illegal _ => none

/-- How many bytes a mnemonic pushes on the stack (R57, R157, R165, R167, R185). -/
def pushes : Op → Nat
  | .pha | .php => 1
  | .jsr _ => 2
  | .brk => 3
  | .lda _ | .ldx _ | .ldy _ | .adc _ | .sbc _ | .and _ | .ora _ | .eor _ | .cmp _ | .cpx _ | .cpy _ | .bit _
  | .sta _ | .stx _ | .sty _ | .tax | .tay | .txa | .tya | .tsx | .txs | .inc _ | .dec _
  | .inx | .iny | .dex | .dey | .asl _ | .lsr _ | .rol _ | .ror _
  | .bcc _ | .bcs _ | .beq _ | .bne _ | .bmi _ | .bpl _ | .bvc _ | .bvs _ | .jmp _ | .rts
  | .pla | .plp | .clc | .sec | .cli | .sei | .cld | .sed | .clv | .nop | .rti | .illegal _ => 0

/-- The flag a branch tests, the value it branches on, and its offset (R148 to R155). -/
def branchOf : Op → Option (Flag × Bool × Byte)
  | .bcc off => some (.carry, false, off)
  | .bcs off => some (.carry, true, off)
  | .beq off => some (.zero, true, off)
  | .bne off => some (.zero, false, off)
  | .bmi off => some (.negative, true, off)
  | .bpl off => some (.negative, false, off)
  | .bvc off => some (.overflow, false, off)
  | .bvs off => some (.overflow, true, off)
  | .lda _ | .ldx _ | .ldy _ | .sta _ | .stx _ | .sty _ | .tax | .tay | .txa | .tya | .tsx | .txs
  | .adc _ | .sbc _ | .and _ | .ora _ | .eor _ | .cmp _ | .cpx _ | .cpy _ | .bit _ | .inc _ | .dec _
  | .inx | .iny | .dex | .dey | .asl _ | .lsr _ | .rol _ | .ror _ | .jmp _ | .jsr _ | .rts | .pha | .pla | .php | .plp
  | .clc | .sec | .cli | .sei | .cld | .sed | .clv | .nop | .brk | .rti | .illegal _ => none

/-- 1 when page crossings cost a cycle and the two addresses lie in different 256-byte pages (R12, R88). -/
def crossing (base ea : Addr) (s : State) : Nat :=
  if s.cfg.pageCross = .standard ∧ base.toNat / 256 ≠ ea.toNat / 256 then 1 else 0

/-- The cycles an instruction adds beyond its base cost, from the state it starts in (R72, R88, R147, R50). -/
def extraCycles (op : Op) (s : State) : Nat :=
  match readSource op, storeOf op, modifyOf op, branchOf op with
  | some (.mem m), _, _, _ => crossing (baseAddress m s) (effectiveAddress m s) s
  | _, some (_, m), _, _ => if effectiveAddress m s = 0x4014#16 then s.cfg.oamDmaCycles else 0
  | _, _, some m, _ => if effectiveAddress m s = 0x4014#16 then s.cfg.oamDmaCycles else 0
  | _, _, _, some (f, b, off) => if s.flag f = b then 1 + crossing s.pc (branchTarget off s) s else 0
  | _, _, _, none => 0

/-- `p'` is the status byte `p` with Z and N set from `v` as `SetZN(v)` says and no other flag changed (R27). -/
def setsZN (p p' v : Byte) : Prop :=
  ∀ f, flagOf f p' = if f = .zero then decide (v = 0#8) else if f = .negative then v.getLsbD 7 else flagOf f p

/-- `p'` is the status byte `p` with the listed flags at the listed values and no other flag changed. -/
def flagsSet (p p' : Byte) (changes : List (Flag × Bool)) : Prop :=
  ∀ f, flagOf f p' = (changes.lookup f).getD (flagOf f p)

/-- Two states that differ in one flag at most. -/
def agreeBut (f : Flag) (s t : State) : Prop := t = { s with p := t.p } ∧ ∀ g, g ≠ f → t.flag g = s.flag g

/-- Two outcomes that differ in one flag of the next state at most. -/
def outcomesAgreeBut (f : Flag) (q r : StepOutcome) : Prop :=
  match q, r with
  | .next s, .next t => agreeBut f s t
  | .fault e, .fault d => e = d
  | .refused e, .refused d => e = d
  | .next _, .fault _ | .next _, .refused _ | .fault _, .next _ | .fault _, .refused _ | .refused _, .next _
  | .refused _, .fault _ => False

/-! ## The invariant -/

/-- The ranges and canonical forms of the PPU (10_state R31, R32): the counters in range, bits 5 to 0 of the status
register 0, the memories canonical and of their size. -/
def Ppu.wf (p : Ppu) : Bool :=
  decide (p.dot < dotsPerLine) && decide (p.scanline < linesPerFrame) && (p.status &&& 0x3F#8 == 0#8)
    && p.vram.wf vramSize && p.pal.wf palSize && p.oam.wf oamSize

/-- The image of a cartridge is of its size (R4, R29). -/
def Cartridge.wf (c : Cartridge) : Bool := c.prg.wf (prgBytes c.prgSize) && c.chr.wf chrSize

/-- The invariant of the machine: every store canonical and of its size, every counter in range. -/
def State.wf (s : State) : Bool := s.ram.wf ramSize && s.ppu.wf && s.cart.wf

/-- `B = 0` and `U = 1` (R26). -/
def breakClearUnusedSet (s : State) : Bool := !s.flag .brk && s.flag .unused

/-- How far into the frame the PPU is: dots since scanline 0, dot 0 (R230). -/
def framePosition (p : Ppu) : Nat := p.scanline * dotsPerLine + p.dot

/-! ## A safe run -/

/-- Whether `n` steps from `s` all complete: no fault stops the machine. -/
def safeRun (n : Nat) (s : State) : Bool :=
  match Host.Core.run Sys2Proof.core n s with
  | .next _ => true
  | .fault _ => false
  | .refused _ => false

end Sys2Proof.Machine
end

