-- ==== Sys2Proof/Certificates/Slice0/Obligations.lean ====
section
/-! DEFINITION. The statements about the model, from the numbered rules of spec/. Nothing here is about a program. A
statement about an instruction speaks of `opOf i`, the mnemonic with its operand, so that it holds for every row of the
opcode table with that mnemonic. exec starts with PC at the next instruction (log entry 6). -/

open Sys2Proof Sys2Proof.Machine

/-! ## Encoding (30_encoding R70, R71, R90, R92) -/

/-- Decoding the bytes of a well-formed instruction gives it back, with every operand at every value. -/
def Obligations.DecodeOfEncodeIsIdentity : Prop :=
  ∀ (i : Instr) (rest : List Byte), i.wf = true → decode (encode i ++ rest) = .ok i rest

/-- What the decoder reads is a well-formed instruction whose bytes are the bytes read, so the opcode field round-trips
for all 256 opcode bytes; it is `illegal` exactly for the bytes of R92. -/
def Obligations.EncodeOfDecodeIsIdentity : Prop :=
  (∀ (bs rest : List Byte) (i : Instr), decode bs = .ok i rest → i.wf = true ∧ encode i ++ rest = bs)
  ∧ (∀ opcode b1 b2 : Byte, opcodeOf (decodeOpcode opcode b1 b2) = opcode
      ∧ (decodeOpcode opcode b1 b2 = .illegal opcode ↔ isIllegalOpcode opcode = true))

/-- Words written out from the opcode map of R90, one per family. -/
def Obligations.SpecWordsDecode : Prop :=
  decode [0xA9#8, 0x80#8] = .ok (.ldaImm 0x80#8) []
  ∧ decode [0x8D#8, 0x00#8, 0x02#8] = .ok (.staAbs 0x0200#16) []
  ∧ decode [0xF1#8, 0x12#8] = .ok (.sbcIzy 0x12#8) []
  ∧ decode [0x1E#8, 0x34#8, 0x12#8] = .ok (.aslAbx 0x1234#16) []
  ∧ decode [0x6C#8, 0xFF#8, 0x02#8] = .ok (.jmpInd 0x02FF#16) []
  ∧ decode [0xD0#8, 0xFB#8] = .ok (.bne 0xFB#8) []
  ∧ decode [0x00#8, 0xFF#8] = .ok .brk [0xFF#8]
  ∧ decode [0x89#8] = .ok (.illegal 0x89#8) []

/-! ## The step (00_scope R6, 30_encoding R72, 60_exceptions R203, R210) -/

/-- When the bytes at PC decode to an instruction, the step is exec of it with PC past its bytes and its base cycles
added, closed by the PPU's advance of 3 dots per cycle (R72). Wherever the bytes come from (a fetch is an ordinary bus
read, R73), the step is exec of the instruction fetched, or the fetch's fault. -/
def Obligations.StepRunsDecodedInstruction : Prop :=
  ∀ s : State, s.fault = none → s.ppu.nmiPending = false →
    (∀ (bs : List Byte) (i : Instr), codeAt s s.pc bs = true → decode bs = .ok i [] →
      i.wf = true
      ∧ step s = closeStep s.cycles
          (exec i { s with pc := s.pc + BitVec.ofNat 16 bs.length, cycles := s.cycles + baseCycles i }))
    ∧ (∀ (i : Instr) (t : State), fetchInstr s = .ok i t → i.wf = true ∧ step s = closeStep s.cycles (exec i t))
    ∧ (∀ (f : Fault) (t : State), fetchInstr s = .fault f t → step s = .fault f)
    ∧ ∀ t : State, closeStep s.cycles (.next t) = .next { t with ppu := ppuAdvance (3 * (t.cycles - s.cycles)) t.ppu }

/-- An opcode byte of R92 stops the machine with the byte and the address it was fetched from, after PC has advanced by 1
and before anything else changes; the instruction `illegal` stops on every path. -/
def Obligations.IllegalOpcodeStops : Prop :=
  (∀ (opcode : Byte) (s : State), exec (.illegal opcode) s = .fault (.illegalOpcode opcode (s.pc - 1#16)))
  ∧ (∀ (s t : State) (opcode : Byte), s.fault = none → s.ppu.nmiPending = false → busRead s.pc s = .ok opcode t →
      isIllegalOpcode opcode = true →
      step s = .fault (.illegalOpcode opcode s.pc)
      ∧ driverStep s = { t with pc := s.pc + 1#16, fault := some (.illegalOpcode opcode s.pc) })

/-- A machine with a fault recorded takes no further step and changes no more, whatever else it holds (R203, R6 (a)). -/
def Obligations.FaultedMachineIsStuck : Prop :=
  ∀ (s : State) (f : Fault), s.fault = some f → step s = .fault f ∧ ∀ n, driverRun n s = s

/-- NMI service (R210): what it pushes and where, the flags, PC, the PPU's dots, and all it leaves alone. -/
def Obligations.NmiServiceStep : Prop :=
  ∀ s : State, s.fault = none → s.ppu.nmiPending = true → s.ram.wf ramSize = true →
    ∃ t, step s = .next t
      ∧ t.pc = word (prgRead s.cart 0xFFFA#16) (prgRead s.cart 0xFFFB#16)
      ∧ t.sp = s.sp - 3#8
      ∧ t.ram.read (0x100 + s.sp.toNat) = hi s.pc
      ∧ t.ram.read (0x100 + (s.sp - 1#8).toNat) = lo s.pc
      ∧ t.ram.read (0x100 + (s.sp - 2#8).toNat) = (s.p &&& 0xEF#8) ||| 0x20#8
      ∧ (∀ k, k ≠ 0x100 + s.sp.toNat → k ≠ 0x100 + (s.sp - 1#8).toNat → k ≠ 0x100 + (s.sp - 2#8).toNat →
          t.ram.read k = s.ram.read k)
      ∧ flagsSet s.p t.p [(.interruptDisable, true)]
      ∧ t.ppu = ppuAdvance s.cfg.nmiExtraDots { s.ppu with nmiPending := false }
      ∧ t.a = s.a ∧ t.x = s.x ∧ t.y = s.y ∧ t.cycles = s.cycles ∧ t.cart = s.cart ∧ t.cfg = s.cfg ∧ t.fault = none

/-- The driver's view of a step is the step: the same next state, the same fault, which it records; and no step is
refused, so every instruction has a meaning. -/
def Obligations.DriverViewAgreesWithStep : Prop :=
  ∀ s : State,
    (∀ t, step s = .next t → driverStep s = t)
    ∧ (∀ f, step s = .fault f → (driverStep s).fault = some f)
    ∧ (∀ e, step s ≠ .refused e)

/-! ## Reset and the cartridge (70_reset_and_hazards R262, R272, R273, 10_state R33) -/

/-- Reset, for every choice of RESET: PC comes from the last words of PRG, read through the bus, every other piece of
state is at its value in RESET, and no fault is recorded (R262, R34). -/
def Obligations.ResetLoadsPcFromVector : Prop :=
  ∀ r : State,
    (State.resetFrom r).pc
      = word (r.cart.prg.read (prgBytes r.cart.prgSize - 4)) (r.cart.prg.read (prgBytes r.cart.prgSize - 3))
    ∧ readVector 0xFFFC#16 (State.resetFrom r) = .ok (State.resetFrom r).pc (State.resetFrom r)
    ∧ State.resetFrom r = { r with pc := (State.resetFrom r).pc, fault := none }

/-- The spec's default reset values (R33, the spec's own decision D13: log entry 5) around any cartridge and parameters;
the first step after reset is an instruction step (R264). -/
def Obligations.ResetDefaults : Prop :=
  ∀ (c : Cartridge) (g : Config),
    let s := State.resetWith c g
    s.a = 0#8 ∧ s.x = 0#8 ∧ s.y = 0#8 ∧ s.sp = 0xFD#8 ∧ s.p = 0x24#8 ∧ s.cycles = 0
    ∧ (∀ k, s.ram.read k = 0#8 ∧ s.ppu.vram.read k = 0#8 ∧ s.ppu.pal.read k = 0#8 ∧ s.ppu.oam.read k = 0#8)
    ∧ s.ppu.ctrl = 0#8 ∧ s.ppu.mask = 0#8 ∧ s.ppu.status = 0#8 ∧ s.ppu.oamAddr = 0#8 ∧ s.ppu.scrollX = 0#8
    ∧ s.ppu.scrollY = 0#8 ∧ s.ppu.vramAddr = 0#14 ∧ s.ppu.readBuf = 0#8 ∧ s.ppu.w = false
    ∧ s.ppu.dot = 0 ∧ s.ppu.scanline = 0 ∧ s.ppu.nmiPending = false ∧ s.fault = none
    ∧ s.cart = c ∧ s.cfg = g ∧ step s = instructionStep s

/-- The invariants hold right after reset, for every well-formed cartridge and for the model's own reset state. -/
def Obligations.ResetStateIsWellFormed : Prop :=
  (∀ (c : Cartridge) (g : Config), c.wf = true →
    (State.resetWith c g).wf = true ∧ breakClearUnusedSet (State.resetWith c g) = true)
  ∧ State.reset.wf = true ∧ breakClearUnusedSet State.reset = true

/-- The loader (R271 to R273): an image is refused exactly for the causes R271 lists; PRG, CHR and the mirroring of an
accepted image are the header's slices of it, and the cartridge is well-formed. -/
def Obligations.LoaderExtractsSlices : Prop :=
  ∀ image : List Byte,
    let start := 16 + (if (imageByte image 6).getLsbD 2 then 512 else 0)
    let size := 16384 * (imageByte image 4).toNat
    ((∃ e, loadCartridge image = .error e) ↔
      image.take 4 ≠ [0x4E#8, 0x45#8, 0x53#8, 0x1A#8] ∨ (imageByte image 7 >>> 2) &&& 3#8 ≠ 0#8
      ∨ (imageByte image 7 &&& 0xF0#8) ||| (imageByte image 6 >>> 4) ≠ 0#8
      ∨ ¬((imageByte image 4).toNat = 1 ∨ (imageByte image 4).toNat = 2) ∨ (imageByte image 5).toNat ≠ 1
      ∨ (imageByte image 6).getLsbD 3 = true ∨ image.length < start + size + 8192 * (imageByte image 5).toNat)
    ∧ ∀ c, loadCartridge image = .ok c →
      c.wf = true ∧ prgBytes c.prgSize = size
      ∧ (∀ k, k < size → c.prg.read k = imageByte image (start + k))
      ∧ (∀ k, k < 8192 → c.chr.read k = imageByte image (start + size + k))
      ∧ (c.mirroring = .vertical ↔ (imageByte image 6).getLsbD 0 = true)

/-! ## The bus (20_memory R44 to R58) -/

/-- RAM is mirrored through $0000-$1FFF (R46): a write there is seen at every address of the same cell and at no other,
and reads have no side effect. -/
def Obligations.RamIsMirrored : Prop :=
  ∀ (a b : Addr) (v : Byte) (s : State), s.ram.wf ramSize = true → a.toNat ≤ 0x1FFF → b.toNat ≤ 0x1FFF →
    ∃ t, busWrite a v s = .ok () t
      ∧ busRead b t = .ok (if b.toNat % 0x800 = a.toNat % 0x800 then v else s.ram.read (b.toNat % 0x800)) t
      ∧ t = { s with ram := t.ram }

/-- The PRG window (R48) and the out-of-range addresses (R41, R49). -/
def Obligations.PrgAndOutOfRangeAccesses : Prop :=
  ∀ (a : Addr) (v : Byte) (s : State),
    (0x8000 ≤ a.toNat → s.cart.prgSize = .k16 → busRead a s = .ok (s.cart.prg.read ((a.toNat - 0x8000) % 0x4000)) s)
    ∧ (0x8000 ≤ a.toNat → s.cart.prgSize = .k32 → busRead a s = .ok (s.cart.prg.read (a.toNat - 0x8000)) s)
    ∧ (0x8000 ≤ a.toNat → busWrite a v s = .fault (.romWrite .prg a) s)
    ∧ (0x4000 ≤ a.toNat → a.toNat ≤ 0x7FFF → s.cfg.oorPolicy = .fault →
        busRead a s = .fault (.outOfRangeAccess .read a) s
        ∧ (a ≠ 0x4014#16 → busWrite a v s = .fault (.outOfRangeAccess .write a) s))
    ∧ (0x4000 ≤ a.toNat → a.toNat ≤ 0x7FFF → s.cfg.oorPolicy = .degrade →
        busRead a s = .ok 0#8 s ∧ (a ≠ 0x4014#16 → busWrite a v s = .ok () s))

/-- Illegal accesses to the PPU ports fault and change nothing, through every mirror of the window (R47, R253). -/
def Obligations.RejectedPortAccesses : Prop :=
  ∀ (a : Addr) (v : Byte) (s : State), 0x2000 ≤ a.toNat → a.toNat ≤ 0x3FFF →
    (a.toNat % 8 ∈ [0, 1, 3, 5, 6] →
      busRead a s = .fault (.registerAccessViolation .read (BitVec.ofNat 3 (a.toNat % 8))) s)
    ∧ (a.toNat % 8 = 2 → busWrite a v s = .fault (.registerAccessViolation .write 2#3) s)

/-- A write completes exactly where `busWritable` says. -/
def Obligations.BusWriteCompletesExactly : Prop :=
  ∀ (a : Addr) (v : Byte) (s : State), (∃ t, busWrite a v s = .ok () t) ↔ busWritable a v s = true

/-- OAM-DMA (R50): the 256 bytes of the page go to OAM from `oam_addr` on, wrapping; `oam_addr` is unchanged, the open
cycle cost is added, nothing else changes; a source page that cannot be read ends with the fault of its first read. -/
def Obligations.OamDmaCopiesPage : Prop :=
  ∀ (v : Byte) (s : State), s.ppu.oam.wf oamSize = true →
    (dmaReadable v s = true → ∃ t, busWrite 0x4014#16 v s = .ok () t
      ∧ (∀ i : Byte, busRead (word i v) s = .ok (t.ppu.oam.read (s.ppu.oamAddr + i).toNat) s)
      ∧ t = { s with cycles := s.cycles + s.cfg.oamDmaCycles, ppu := { s.ppu with oam := t.ppu.oam } }
      ∧ t.ppu.oam.wf oamSize = true)
    ∧ (0x20 ≤ v.toNat → v.toNat ≤ 0x3F → busWrite 0x4014#16 v s = .fault (.registerAccessViolation .read 0#3) s)
    ∧ (0x40 ≤ v.toNat → v.toNat ≤ 0x7F → s.cfg.oorPolicy = .fault →
        busWrite 0x4014#16 v s = .fault (.outOfRangeAccess .read (word 0#8 v)) s)

/-- Pushes and pulls (R55 to R58): the bytes go to page $01, SP wraps modulo 256, nothing faults, and a pull after a push
returns what was pushed and restores SP. -/
def Obligations.PullAfterPush : Prop :=
  ∀ (v : Byte) (w : Addr) (s : State), s.ram.wf ramSize = true →
    (∃ t, push8 v s = .ok () t ∧ t.ram.read (0x100 + s.sp.toNat) = v ∧ t.sp = s.sp - 1#8
      ∧ (∀ k, k ≠ 0x100 + s.sp.toNat → t.ram.read k = s.ram.read k)
      ∧ t = { s with ram := t.ram, sp := t.sp }
      ∧ pull8 t = .ok v { t with sp := s.sp })
    ∧ (∃ t, push16 w s = .ok () t ∧ t.sp = s.sp - 2#8
      ∧ t.ram.read (0x100 + (t.sp + 1#8).toNat) = lo w ∧ t.ram.read (0x100 + (t.sp + 2#8).toNat) = hi w
      ∧ (∀ k, k ≠ 0x100 + s.sp.toNat → k ≠ 0x100 + (s.sp - 1#8).toNat → t.ram.read k = s.ram.read k)
      ∧ t = { s with ram := t.ram, sp := t.sp }
      ∧ pull16 t = .ok w { t with sp := s.sp })
    ∧ pull8 s = .ok (s.ram.read (0x100 + (s.sp + 1#8).toNat)) { s with sp := s.sp + 1#8 }
    ∧ pull16 s = .ok (word (s.ram.read (0x100 + (s.sp + 1#8).toNat)) (s.ram.read (0x100 + (s.sp + 2#8).toNat)))
        { s with sp := s.sp + 2#8 }

/-! ## Operands (30_encoding R76 to R88) -/

/-- The effective addresses as numbers (R76 to R81, R84, R85). -/
def Obligations.EffectiveAddresses : Prop :=
  ∀ (a : Byte) (w : Addr) (s : State),
    (effectiveAddress (.zp a) s).toNat = a.toNat
    ∧ (effectiveAddress (.zpx a) s).toNat = (a.toNat + s.x.toNat) % 256
    ∧ (effectiveAddress (.zpy a) s).toNat = (a.toNat + s.y.toNat) % 256
    ∧ effectiveAddress (.abs w) s = w
    ∧ (effectiveAddress (.abx w) s).toNat = (w.toNat + s.x.toNat) % 65536
    ∧ (effectiveAddress (.aby w) s).toNat = (w.toNat + s.y.toNat) % 65536
    ∧ (effectiveAddress (.izx a) s).toNat
        = (s.ram.read ((a.toNat + s.x.toNat) % 256)).toNat + 256 * (s.ram.read ((a.toNat + s.x.toNat + 1) % 256)).toNat
    ∧ (effectiveAddress (.izy a) s).toNat
        = ((s.ram.read a.toNat).toNat + 256 * (s.ram.read ((a.toNat + 1) % 256)).toNat + s.y.toNat) % 65536

/-- Reading an operand (R75, R86, R88 (a)): the inline byte, or one bus read at the effective address, with the page-cross
cycle where `PAGE_CROSS` is standard (added before the read: the model's choice, log entry 15); written out for RAM and
PRG. A bus read completes exactly where `busReadable` says (R44, R49, R253), and an operand can be read exactly where
`sourceReadable` says. -/
def Obligations.OperandsAreRead : Prop :=
  (∀ (v : Byte) (s : State), readOperand (.imm v) s = .ok v s)
  ∧ (∀ (m : MemOperand) (s : State),
    let ea := effectiveAddress m s
    let t := { s with cycles := s.cycles + crossing (baseAddress m s) ea s }
    readOperand (.mem m) s = busRead ea t
    ∧ (ea.toNat ≤ 0x1FFF → readOperand (.mem m) s = .ok (s.ram.read (ea.toNat % 0x800)) t)
    ∧ (0x8000 ≤ ea.toNat → readOperand (.mem m) s = .ok (prgRead s.cart ea) t))
  ∧ (∀ (a : Addr) (s : State), (∃ v t, busRead a s = .ok v t) ↔ busReadable a s = true)
  ∧ ∀ (src : Source) (s : State), (∃ v t, readOperand src s = .ok v t) ↔ sourceReadable src s = true

/-! ## Loads, stores, transfers (40_load_store_transfer) -/

/-- LDA, LDX, LDY: every form whose operand can be read completes with the operand in the register and Z, N set. -/
def Obligations.LoadsLoad : Prop :=
  ∀ (i : Instr) (src : Source) (s : State), sourceReadable src s = true →
    ∃ v t p', readOperand src s = .ok v t ∧ setsZN s.p p' v
      ∧ (opOf i = .lda src → exec i s = .next { t with a := v, p := p' })
      ∧ (opOf i = .ldx src → exec i s = .next { t with x := v, p := p' })
      ∧ (opOf i = .ldy src → exec i s = .next { t with y := v, p := p' })

/-- STA, STX, STY: every form whose address can be written completes with that one bus write; into RAM, that is the one
byte of RAM. -/
def Obligations.StoresStore : Prop :=
  ∀ (i : Instr) (r : Reg) (m : MemOperand) (s : State), storeOf (opOf i) = some (r, m) →
    (busWritable (effectiveAddress m s) (s.reg r) s = true →
      ∃ t, busWrite (effectiveAddress m s) (s.reg r) s = .ok () t ∧ exec i s = .next t)
    ∧ ((effectiveAddress m s).toNat ≤ 0x1FFF →
      exec i s = .next { s with ram := s.ram.write ((effectiveAddress m s).toNat % 0x800) (s.reg r) })

/-- A store that cannot complete stops with the fault of its bus write, which the address decides (R48, R49, R251, R253),
or, for $4014, the source page (R50): the fault of the DMA's first read. -/
def Obligations.StoresThatFault : Prop :=
  ∀ (i : Instr) (r : Reg) (m : MemOperand) (s : State), storeOf (opOf i) = some (r, m) →
    let ea := effectiveAddress m s
    (busWritable ea (s.reg r) s = false → ∃ f u, busWrite ea (s.reg r) s = .fault f u ∧ exec i s = .fault f)
    ∧ (0x8000 ≤ ea.toNat → exec i s = .fault (.romWrite .prg ea))
    ∧ (0x2000 ≤ ea.toNat → ea.toNat ≤ 0x3FFF → ea.toNat % 8 = 2 →
        exec i s = .fault (.registerAccessViolation .write 2#3))
    ∧ (0x2000 ≤ ea.toNat → ea.toNat ≤ 0x3FFF → ea.toNat % 8 = 7 → s.ppu.vramAddr.toNat ≤ 0x1FFF →
        exec i s = .fault (.romWrite .chr (s.ppu.vramAddr.setWidth 16)))
    ∧ (0x4000 ≤ ea.toNat → ea.toNat ≤ 0x7FFF → ea ≠ 0x4014#16 → s.cfg.oorPolicy = .fault →
        exec i s = .fault (.outOfRangeAccess .write ea))
    ∧ (ea = 0x4014#16 → 0x20 ≤ (s.reg r).toNat → (s.reg r).toNat ≤ 0x3F →
        exec i s = .fault (.registerAccessViolation .read 0#3))
    ∧ (ea = 0x4014#16 → 0x40 ≤ (s.reg r).toNat → (s.reg r).toNat ≤ 0x7F → s.cfg.oorPolicy = .fault →
        exec i s = .fault (.outOfRangeAccess .read (word 0#8 (s.reg r))))

/-- The first access that faults ends the instruction with its fault (R100, R200, R215): the operand read of a reading
instruction, the write of a store (an OAM-DMA's source reads among it, R50), the read or the write of a read-modify-write instruction, either pointer read of JMP Indirect. -/
def Obligations.FaultingAccessEndsInstruction : Prop :=
  ∀ (i : Instr) (s t : State) (f : Fault),
    (∀ src, readSource (opOf i) = some src → readOperand src s = .fault f t → exec i s = .fault f)
    ∧ (∀ r m, storeOf (opOf i) = some (r, m) → busWrite (effectiveAddress m s) (s.reg r) s = .fault f t →
        exec i s = .fault f)
    ∧ (∀ m, modifyOf (opOf i) = some m →
        (busRead (effectiveAddress m s) s = .fault f t → exec i s = .fault f)
        ∧ ∀ v, busRead (effectiveAddress m s) s = .ok v t →
          (∀ r, ∃ u, busWrite (effectiveAddress m s) r t = .fault f u) → exec i s = .fault f)
    ∧ (∀ ptr, opOf i = .jmp (.ind ptr) →
        (busRead ptr s = .fault f t → exec i s = .fault f)
        ∧ ∀ l u, busRead ptr s = .ok l t → busRead (word (lo ptr + 1#8) (hi ptr)) t = .fault f u → exec i s = .fault f)

/-- The six transfers (R107 to R112): all complete; all but TXS set Z and N. -/
def Obligations.TransfersMove : Prop :=
  ∀ s : State,
    (∃ p', exec .tax s = .next { s with x := s.a, p := p' } ∧ setsZN s.p p' s.a)
    ∧ (∃ p', exec .tay s = .next { s with y := s.a, p := p' } ∧ setsZN s.p p' s.a)
    ∧ (∃ p', exec .txa s = .next { s with a := s.x, p := p' } ∧ setsZN s.p p' s.x)
    ∧ (∃ p', exec .tya s = .next { s with a := s.y, p := p' } ∧ setsZN s.p p' s.y)
    ∧ (∃ p', exec .tsx s = .next { s with x := s.sp, p := p' } ∧ setsZN s.p p' s.sp)
    ∧ exec .txs s = .next { s with sp := s.x }
    ∧ [encode .tax, encode .tay, encode .txa, encode .tya, encode .tsx, encode .txs]
        = [[0xAA#8], [0xA8#8], [0x8A#8], [0x98#8], [0xBA#8], [0x9A#8]]
    ∧ [baseCycles .tax, baseCycles .tay, baseCycles .txa, baseCycles .tya, baseCycles .tsx, baseCycles .txs]
        = [2, 2, 2, 2, 2, 2]

/-! ## Arithmetic and logic (41_arithmetic_logic) -/

/-- The adder (R115): the low 8 bits of the exact sum, the carry out, and the overflow by both of the rule's words. -/
def Obligations.AdderIsExact : Prop :=
  ∀ (a m : Byte) (c : Bool),
    (addWithCarry a m c).result.toNat = (a.toNat + m.toNat + bitNat c) % 256
    ∧ ((addWithCarry a m c).carry = true ↔ a.toNat + m.toNat + bitNat c > 255)
    ∧ ((addWithCarry a m c).overflow = true ↔
        a.getLsbD 7 = m.getLsbD 7 ∧ (addWithCarry a m c).result.getLsbD 7 ≠ a.getLsbD 7)
    ∧ ((addWithCarry a m c).overflow = true ↔
        a.toInt + m.toInt + bitNat c < -128 ∨ 127 < a.toInt + m.toInt + bitNat c)
    ∧ ((addWithCarry a m c).overflow = true ↔
        ((m ^^^ (addWithCarry a m c).result) &&& ((addWithCarry a m c).result ^^^ a) &&& 0x80#8) ≠ 0#8)

/-- ADC (R119): A and the flags C, Z, V, N from the exact sum; the Decimal flag plays no part. -/
def Obligations.AdcAdds : Prop :=
  ∀ (i : Instr) (src : Source) (s : State), opOf i = .adc src → sourceReadable src s = true →
    ∃ v t r p', readOperand src s = .ok v t ∧ exec i s = .next { t with a := r, p := p' }
      ∧ r.toNat = (s.a.toNat + v.toNat + bitNat (s.flag .carry)) % 256
      ∧ flagsSet s.p p' [
          (.carry, decide (s.a.toNat + v.toNat + bitNat (s.flag .carry) > 255)),
          (.zero, decide ((s.a.toNat + v.toNat + bitNat (s.flag .carry)) % 256 = 0)),
          (.overflow, decide (s.a.toInt + v.toInt + bitNat (s.flag .carry) < -128
            ∨ 127 < s.a.toInt + v.toInt + bitNat (s.flag .carry))),
          (.negative, r.getLsbD 7)]

/-- SBC (R116, R120): A - m - (1 - C); C is 1 when no borrow occurred, V when the signed difference is out of range. -/
def Obligations.SbcSubtracts : Prop :=
  ∀ (i : Instr) (src : Source) (s : State), opOf i = .sbc src → sourceReadable src s = true →
    ∃ v t r p', readOperand src s = .ok v t ∧ exec i s = .next { t with a := r, p := p' }
      ∧ r = s.a - v - BitVec.ofNat 8 (1 - bitNat (s.flag .carry))
      ∧ flagsSet s.p p' [
          (.carry, decide (v.toNat + (1 - bitNat (s.flag .carry)) ≤ s.a.toNat)),
          (.zero, decide (r = 0#8)),
          (.overflow, decide (s.a.toInt - v.toInt - (1 - bitNat (s.flag .carry) : Nat) < -128
            ∨ 127 < s.a.toInt - v.toInt - (1 - bitNat (s.flag .carry) : Nat))),
          (.negative, r.getLsbD 7)]

/-- AND, ORA, EOR (R121 to R123). -/
def Obligations.LogicCombines : Prop :=
  ∀ (i : Instr) (src : Source) (s : State), sourceReadable src s = true →
    ∃ v t, readOperand src s = .ok v t
      ∧ (opOf i = .and src → ∃ p', exec i s = .next { t with a := s.a &&& v, p := p' } ∧ setsZN s.p p' (s.a &&& v))
      ∧ (opOf i = .ora src → ∃ p', exec i s = .next { t with a := s.a ||| v, p := p' } ∧ setsZN s.p p' (s.a ||| v))
      ∧ (opOf i = .eor src → ∃ p', exec i s = .next { t with a := s.a ^^^ v, p := p' } ∧ setsZN s.p p' (s.a ^^^ v))

/-- CMP, CPX, CPY (R117, R124 to R126): Z, C, N of the comparison, V and the registers not affected. -/
def Obligations.ComparesCompare : Prop :=
  ∀ (i : Instr) (src : Source) (s : State) (r : Reg), sourceReadable src s = true →
    (opOf i = .cmp src ∧ r = .a) ∨ (opOf i = .cpx src ∧ r = .x) ∨ (opOf i = .cpy src ∧ r = .y) →
    ∃ v t p', readOperand src s = .ok v t ∧ exec i s = .next { t with p := p' }
      ∧ flagsSet s.p p' [
          (.zero, decide (s.reg r = v)),
          (.carry, decide (v.toNat ≤ (s.reg r).toNat)),
          (.negative, decide (128 ≤ ((s.reg r).toNat + 256 - v.toNat) % 256))]

/-- BIT (R127): Z from A and the operand, N and V from bits 7 and 6 of the operand alone. -/
def Obligations.BitTests : Prop :=
  ∀ (i : Instr) (m : MemOperand) (s : State), opOf i = .bit m → busReadable (effectiveAddress m s) s = true →
    ∃ v t p', readOperand (.mem m) s = .ok v t ∧ exec i s = .next { t with p := p' }
      ∧ flagsSet s.p p' [(.zero, decide (s.a &&& v = 0#8)), (.negative, v.getLsbD 7), (.overflow, v.getLsbD 6)]

/-- INC and DEC (R128, R129): one read and one write at one address, wrapping, Z and N; C and V unchanged. -/
def Obligations.IncAndDecModifyMemory : Prop :=
  ∀ (i : Instr) (m : MemOperand) (s : State) (v r : Byte) (t : State),
    (opOf i = .inc m ∧ r.toNat = (v.toNat + 1) % 256) ∨ (opOf i = .dec m ∧ r.toNat = (v.toNat + 255) % 256) →
    busRead (effectiveAddress m s) s = .ok v t → busWritable (effectiveAddress m s) r t = true →
    ∃ u p', busWrite (effectiveAddress m s) r t = .ok () u ∧ exec i s = .next { u with p := p' } ∧ setsZN s.p p' r

/-- INX, INY, DEX, DEY (R130 to R133). -/
def Obligations.IndexRegistersCount : Prop :=
  ∀ s : State,
    (∃ r p', exec .inx s = .next { s with x := r, p := p' } ∧ r.toNat = (s.x.toNat + 1) % 256 ∧ setsZN s.p p' r)
    ∧ (∃ r p', exec .iny s = .next { s with y := r, p := p' } ∧ r.toNat = (s.y.toNat + 1) % 256 ∧ setsZN s.p p' r)
    ∧ (∃ r p', exec .dex s = .next { s with x := r, p := p' } ∧ r.toNat = (s.x.toNat + 255) % 256 ∧ setsZN s.p p' r)
    ∧ (∃ r p', exec .dey s = .next { s with y := r, p := p' } ∧ r.toNat = (s.y.toNat + 255) % 256 ∧ setsZN s.p p' r)
    ∧ [encode .inx, encode .iny, encode .dex, encode .dey] = [[0xE8#8], [0xC8#8], [0xCA#8], [0x88#8]]
    ∧ [baseCycles .inx, baseCycles .iny, baseCycles .dex, baseCycles .dey] = [2, 2, 2, 2]

/-! ## Shifts and rotates (42_shift_rotate) -/

/-- ASL, LSR, ROL, ROR (R135 to R139): the four data paths as numbers, with the bit shifted out; and in both kinds of
form, A, or one read and one write at one address: C is the bit shifted out, Z and N come from the result, V is
unchanged. -/
def Obligations.ShiftsShift : Prop :=
  (∀ (m : Byte) (c : Bool),
    ((shiftAsl m c).result.toNat = 2 * m.toNat % 256 ∧ (shiftAsl m c).carry = m.getLsbD 7)
    ∧ ((shiftLsr m c).result.toNat = m.toNat / 2 ∧ (shiftLsr m c).carry = m.getLsbD 0)
    ∧ ((shiftRol m c).result.toNat = 2 * m.toNat % 256 + bitNat c ∧ (shiftRol m c).carry = m.getLsbD 7)
    ∧ ((shiftRor m c).result.toNat = m.toNat / 2 + 128 * bitNat c ∧ (shiftRor m c).carry = m.getLsbD 0))
  ∧ ∀ (i : Instr) (f : Byte → Bool → Shifted) (tgt : Target) (s : State),
    (opOf i = .asl tgt ∧ f = shiftAsl) ∨ (opOf i = .lsr tgt ∧ f = shiftLsr) ∨ (opOf i = .rol tgt ∧ f = shiftRol)
      ∨ (opOf i = .ror tgt ∧ f = shiftRor) →
    (tgt = .acc → ∃ p', exec i s = .next { s with a := (f s.a (s.flag .carry)).result, p := p' }
      ∧ flagsSet s.p p' [(.carry, (f s.a (s.flag .carry)).carry),
          (.zero, decide ((f s.a (s.flag .carry)).result = 0#8)),
          (.negative, (f s.a (s.flag .carry)).result.getLsbD 7)])
    ∧ ∀ (m : MemOperand) (v : Byte) (t : State), tgt = .mem m → busRead (effectiveAddress m s) s = .ok v t →
      busWritable (effectiveAddress m s) (f v (s.flag .carry)).result t = true →
      ∃ u p', busWrite (effectiveAddress m s) (f v (s.flag .carry)).result t = .ok () u
        ∧ exec i s = .next { u with p := p' }
        ∧ flagsSet s.p p' [(.carry, (f v (s.flag .carry)).carry),
            (.zero, decide ((f v (s.flag .carry)).result = 0#8)),
            (.negative, (f v (s.flag .carry)).result.getLsbD 7)]

/-! ## Control flow (43_control_flow) -/

/-- The eight branches (R146 to R155): always complete; taken, PC moves by the signed offset and 1 cycle is added, with
one more where `PAGE_CROSS` is standard and the target is in another page; not taken, nothing changes. -/
def Obligations.BranchesBranch : Prop :=
  ∀ (i : Instr) (opcode : Byte) (f : Flag) (b : Bool) (off : Byte) (s : State), (i, opcode, f, b) ∈
      [(Instr.bcc off, 0x90#8, Flag.carry, false), (Instr.bcs off, 0xB0#8, Flag.carry, true),
        (Instr.beq off, 0xF0#8, Flag.zero, true), (Instr.bne off, 0xD0#8, Flag.zero, false),
        (Instr.bmi off, 0x30#8, Flag.negative, true), (Instr.bpl off, 0x10#8, Flag.negative, false),
        (Instr.bvc off, 0x50#8, Flag.overflow, false), (Instr.bvs off, 0x70#8, Flag.overflow, true)] →
    encode i = [opcode, off] ∧ baseCycles i = 2
    ∧ ∃ target : Addr, target.toInt = (s.pc.toInt + off.toInt).bmod 65536
      ∧ exec i s = .next (if s.flag f = b then
          { s with pc := target, cycles := s.cycles + 1 + crossing s.pc target s } else s)

/-- JMP (R83, R156): Absolute always completes; Indirect reads the low byte at the pointer and the high byte at the next
address of the same page, so that a pointer ending in $FF wraps to the start of its page. -/
def Obligations.JumpsJump : Prop :=
  ∀ (w : Addr) (s : State),
    exec (.jmpAbs w) s = .next { s with pc := w }
    ∧ (∃ second : Addr, (second.toNat = if w.toNat % 256 = 255 then w.toNat - 255 else w.toNat + 1)
      ∧ (∀ (l h : Byte) (t u : State), busRead w s = .ok l t → busRead second t = .ok h u →
          exec (.jmpInd w) s = .next { u with pc := word l h })
      ∧ (busReadable w s = true → busReadable second s = true → ∃ t, exec (.jmpInd w) s = .next t))
    ∧ encode (.jmpAbs w) = [0x4C#8, lo w, hi w] ∧ encode (.jmpInd w) = [0x6C#8, lo w, hi w]
    ∧ baseCycles (.jmpAbs w) = 3 ∧ baseCycles (.jmpInd w) = 5

/-- JSR and RTS (R157, R158): JSR pushes the address of its own last byte, RTS pulls and adds 1; an RTS in any state with
the stack as the JSR left it returns to the instruction after the JSR and restores SP. -/
def Obligations.JsrAndRts : Prop :=
  ∀ (w : Addr) (s : State),
    (exec (.jsr w) s = .next { s with
        pc := w
        sp := s.sp - 2#8
        ram := (s.ram.write (0x100 + s.sp.toNat) (hi (s.pc - 1#16))).write (0x100 + (s.sp - 1#8).toNat)
          (lo (s.pc - 1#16)) })
    ∧ (exec .rts s = .next { s with
        pc := word (s.ram.read (0x100 + (s.sp + 1#8).toNat)) (s.ram.read (0x100 + (s.sp + 2#8).toNat)) + 1#16
        sp := s.sp + 2#8 })
    ∧ (s.ram.wf ramSize = true → ∀ t u : State, exec (.jsr w) s = .next t → u.sp = t.sp → u.ram = t.ram →
        exec .rts u = .next { u with pc := s.pc, sp := s.sp })
    ∧ encode (.jsr w) = [0x20#8, lo w, hi w] ∧ encode .rts = [0x60#8] ∧ baseCycles (.jsr w) = 6 ∧ baseCycles .rts = 6

/-! ## Stack, flags, system (44_stack_flags_system) -/

/-- PHA, PLA, PHP, PLP (R165 to R168): all complete; PHP sets bits 4 and 5 of the pushed byte, PLP clears bit 4 and sets
bit 5 of the byte it installs. -/
def Obligations.PushAndPullInstructions : Prop :=
  ∀ s : State,
    exec .pha s = .next { s with ram := s.ram.write (0x100 + s.sp.toNat) s.a, sp := s.sp - 1#8 }
    ∧ (∃ v p', v = s.ram.read (0x100 + (s.sp + 1#8).toNat)
        ∧ exec .pla s = .next { s with a := v, sp := s.sp + 1#8, p := p' } ∧ setsZN s.p p' v)
    ∧ (∃ b : Byte, exec .php s = .next { s with ram := s.ram.write (0x100 + s.sp.toNat) b, sp := s.sp - 1#8 }
        ∧ flagsSet s.p b [(.brk, true), (.unused, true)])
    ∧ (∃ p', exec .plp s = .next { s with sp := s.sp + 1#8, p := p' }
        ∧ flagsSet (s.ram.read (0x100 + (s.sp + 1#8).toNat)) p' [(.brk, false), (.unused, true)])
    ∧ [encode .pha, encode .pla, encode .php, encode .plp] = [[0x48#8], [0x68#8], [0x08#8], [0x28#8]]
    ∧ [baseCycles .pha, baseCycles .pla, baseCycles .php, baseCycles .plp] = [3, 4, 3, 4]

/-- The seven flag instructions and NOP (R169 to R176): each writes one flag, NOP nothing; all complete. -/
def Obligations.FlagInstructionsAndNop : Prop :=
  ∀ s : State,
    (∀ (i : Instr) (f : Flag) (v : Bool), (i, f, v) ∈ [(Instr.clc, Flag.carry, false), (Instr.sec, Flag.carry, true),
        (Instr.cli, Flag.interruptDisable, false), (Instr.sei, Flag.interruptDisable, true),
        (Instr.cld, Flag.decimal, false), (Instr.sed, Flag.decimal, true), (Instr.clv, Flag.overflow, false)] →
      ∃ p', exec i s = .next { s with p := p' } ∧ flagsSet s.p p' [(f, v)])
    ∧ exec .nop s = .next s
    ∧ [encode .clc, encode .sec, encode .cli, encode .sei, encode .cld, encode .sed, encode .clv, encode .nop]
        = [[0x18#8], [0x38#8], [0x58#8], [0x78#8], [0xD8#8], [0xF8#8], [0xB8#8], [0xEA#8]]
    ∧ [baseCycles .clc, baseCycles .sec, baseCycles .cli, baseCycles .sei, baseCycles .cld, baseCycles .sed,
        baseCycles .clv, baseCycles .nop] = [2, 2, 2, 2, 2, 2, 2, 2]

/-- BRK (R185): takes the trap through $FFFE with the address of its opcode plus 2 and P with bits 4 and 5 set on the
stack (PC is the opcode's address plus 1), I set, B in P itself unchanged; nothing else changes. -/
def Obligations.BrkTakesTheTrap : Prop :=
  ∀ s : State,
    ∃ b p' : Byte, exec .brk s = .next { s with
        pc := word (prgRead s.cart 0xFFFE#16) (prgRead s.cart 0xFFFF#16)
        sp := s.sp - 3#8
        p := p'
        ram := ((s.ram.write (0x100 + s.sp.toNat) (hi (s.pc + 1#16))).write (0x100 + (s.sp - 1#8).toNat)
          (lo (s.pc + 1#16))).write (0x100 + (s.sp - 2#8).toNat) b }
      ∧ flagsSet s.p b [(.brk, true), (.unused, true)]
      ∧ flagsSet s.p p' [(.interruptDisable, true)]
      ∧ encode .brk = [0x00#8] ∧ baseCycles .brk = 7

/-- RTI (R186, R217): P pulled with bit 4 cleared and bit 5 set, then PC pulled with nothing added; after a BRK, an RTI in
any state with the stack as the BRK left it returns to the BRK opcode's address plus 2 with the flags as they were. -/
def Obligations.RtiReturns : Prop :=
  ∀ s : State,
    (∃ p', exec .rti s = .next { s with
        p := p'
        sp := s.sp + 3#8
        pc := word (s.ram.read (0x100 + (s.sp + 2#8).toNat)) (s.ram.read (0x100 + (s.sp + 3#8).toNat)) }
      ∧ flagsSet (s.ram.read (0x100 + (s.sp + 1#8).toNat)) p' [(.brk, false), (.unused, true)])
    ∧ (s.ram.wf ramSize = true → breakClearUnusedSet s = true → ∀ t u : State, exec .brk s = .next t → u.sp = t.sp →
        u.ram = t.ram → exec .rti u = .next { u with p := s.p, sp := s.sp, pc := s.pc + 1#16 })
    ∧ encode .rti = [0x40#8] ∧ baseCycles .rti = 6

/-! ## Frames: what an instruction leaves unchanged -/

/-- A register is written only by the instructions R13 to R16 name for it. -/
def Obligations.RegisterFrame : Prop :=
  ∀ (i : Instr) (s t : State) (r : Reg), exec i s = .next t → r ∉ regsWritten (opOf i) → t.reg r = s.reg r

/-- A flag is written only by the instructions the table of R20 names for it. -/
def Obligations.FlagFrame : Prop :=
  ∀ (i : Instr) (s t : State) (f : Flag), exec i s = .next t → f ∉ flagsWritten (opOf i) → t.flag f = s.flag f

/-- PC is written only by control transfers (R17); the cartridge, the parameters and the fault record are written by no
instruction (R29, R35). -/
def Obligations.PcAndConfigurationFrame : Prop :=
  ∀ (i : Instr) (s t : State), exec i s = .next t →
    (transfersControl (opOf i) = false → t.pc = s.pc) ∧ t.cart = s.cart ∧ t.cfg = s.cfg ∧ t.fault = s.fault

/-- An instruction that stores nothing and pushes nothing changes no byte of any memory: loads, ALU instructions with a
register destination, compares, BIT, transfers, accumulator shifts, branches, jumps, returns, pulls, flag instructions. -/
def Obligations.MemoryFrameOfNonStoring : Prop :=
  ∀ (i : Instr) (s t : State) (pl : Place), exec i s = .next t → storeOf (opOf i) = none → modifyOf (opOf i) = none →
    pushes (opOf i) = 0 → t.byteAt pl = s.byteAt pl

/-- A store changes no byte but those a bus write at its effective address touches (R45, R86). -/
def Obligations.MemoryFrameOfStores : Prop :=
  ∀ (i : Instr) (r : Reg) (m : MemOperand) (s t : State) (pl : Place), storeOf (opOf i) = some (r, m) →
    exec i s = .next t → writeTouches (effectiveAddress m s) s pl = false → t.byteAt pl = s.byteAt pl

/-- A read-modify-write instruction changes no byte but those a bus write at its effective address touches, in the state
its read leaves (a read of port 7 moves the VRAM address) (R86, R87). -/
def Obligations.MemoryFrameOfModifies : Prop :=
  ∀ (i : Instr) (m : MemOperand) (s t s1 : State) (v : Byte) (pl : Place), modifyOf (opOf i) = some m →
    busRead (effectiveAddress m s) s = .ok v s1 → exec i s = .next t →
    writeTouches (effectiveAddress m s) s1 pl = false → t.byteAt pl = s.byteAt pl

/-- PHA, PHP, JSR and BRK change no byte but the stack cells they push to, and nothing of the PPU (R55, R58). -/
def Obligations.MemoryFrameOfPushes : Prop :=
  ∀ (i : Instr) (s t : State) (pl : Place), pushes (opOf i) ≠ 0 → exec i s = .next t →
    t.ppu = s.ppu
    ∧ ((∀ k, k < pushes (opOf i) → pl ≠ .ram (0x100 + (s.sp - BitVec.ofNat 8 k).toNat)) →
      t.byteAt pl = s.byteAt pl)

/-- What an instruction that writes nothing to the bus leaves of the PPU (R51): all of it where its data reads are outside
the PPU window; in any case every register but the status, the write toggle, the VRAM address and the read buffer. -/
def Obligations.PpuFrameOfNonStoring : Prop :=
  ∀ (i : Instr) (s t : State), exec i s = .next t → storeOf (opOf i) = none → modifyOf (opOf i) = none →
    t.ppu.ctrl = s.ppu.ctrl ∧ t.ppu.mask = s.ppu.mask ∧ t.ppu.oamAddr = s.ppu.oamAddr
    ∧ t.ppu.scrollX = s.ppu.scrollX ∧ t.ppu.scrollY = s.ppu.scrollY ∧ t.ppu.dot = s.ppu.dot
    ∧ t.ppu.scanline = s.ppu.scanline ∧ t.ppu.nmiPending = s.ppu.nmiPending
    ∧ ((∀ m, readSource (opOf i) = some (.mem m) → outsidePpu (effectiveAddress m s) = true) →
        (∀ ptr, opOf i = .jmp (.ind ptr) →
          outsidePpu ptr = true ∧ outsidePpu (word (lo ptr + 1#8) (hi ptr)) = true) → t.ppu = s.ppu)

/-- The cycles an instruction adds beyond its base cost are those R72 lists and no more. -/
def Obligations.CyclesAdded : Prop :=
  ∀ (i : Instr) (s t : State), exec i s = .next t → t.cycles = s.cycles + extraCycles (opOf i) s

/-- InterruptDisable and Decimal have no effect on what an instruction does (R24, R25): from two states that differ in
that flag alone, every instruction but PHP and BRK, which copy P to the stack, gives outcomes that differ in it alone. -/
def Obligations.InterruptAndDecimalFlagsHaveNoEffect : Prop :=
  ∀ (i : Instr) (f : Flag) (s t : State), f = .interruptDisable ∨ f = .decimal → opOf i ≠ .php → opOf i ≠ .brk →
    agreeBut f s t → outcomesAgreeBut f (exec i s) (exec i t)

/-! ## Invariants -/

/-- Every step keeps the memories canonical and of their size, the PPU counters in range and the low bits of the status
register 0 (R28, R31, R32, R230). -/
def Obligations.StepKeepsStateWellFormed : Prop :=
  ∀ s t : State, s.wf = true → step s = .next t → t.wf = true

/-- If `B = 0` and `U = 1` hold in a state, they hold after every step (R26). -/
def Obligations.StepKeepsBreakClearUnusedSet : Prop :=
  ∀ s t : State, breakClearUnusedSet s = true → step s = .next t → breakClearUnusedSet t = true

/-- No step changes the cartridge or the parameters (R29, R35); a step that completes records no fault (R34); the cycle
counter never decreases (R19). -/
def Obligations.StepKeepsCartridgeAndCountsUp : Prop :=
  ∀ s t : State, step s = .next t → t.cart = s.cart ∧ t.cfg = s.cfg ∧ t.fault = none ∧ s.cycles ≤ t.cycles

/-! ## The PPU (60_exceptions R212, R230 to R251) -/

/-- `PpuAdvance(n)` moves the PPU `n` dots through a frame of 341 x 262 dots, keeps the counters in range, and touches
nothing but the counters, the status and the pending flag (R230). -/
def Obligations.AdvanceMovesThroughFrame : Prop :=
  ∀ (n : Nat) (p : Ppu), p.dot < 341 → p.scanline < 262 →
    framePosition (ppuAdvance n p) = (framePosition p + n) % 89342
    ∧ (ppuAdvance n p).dot < 341 ∧ (ppuAdvance n p).scanline < 262
    ∧ ppuAdvance n p = { p with
        dot := (ppuAdvance n p).dot
        scanline := (ppuAdvance n p).scanline
        status := (ppuAdvance n p).status
        nmiPending := (ppuAdvance n p).nmiPending }

/-- The two events of the timing machine (R231, R232), each on one dot of the frame; on every other dot the status and the
pending flag stay. -/
def Obligations.TimingEvents : Prop :=
  ∀ p : Ppu, p.dot < 341 → p.scanline < 262 →
    (framePosition p + 1 = 241 * 341 →
      (ppuDot p).status.getLsbD 7 = true ∧ (ppuDot p).status.getLsbD 6 = false
      ∧ (ppuDot p).nmiPending = (p.nmiPending || p.ctrl.getLsbD 7))
    ∧ (framePosition p + 1 = 262 * 341 →
      (ppuDot p).status.getLsbD 7 = false ∧ (ppuDot p).status.getLsbD 6 = false
      ∧ (ppuDot p).nmiPending = false ∧ (ppuDot p).scanline = 0 ∧ (ppuDot p).dot = 0)
    ∧ (framePosition p + 1 ≠ 241 * 341 → framePosition p + 1 ≠ 262 * 341 →
      (ppuDot p).status = p.status ∧ (ppuDot p).nmiPending = p.nmiPending)
    ∧ ∀ k, k < 6 → (ppuDot p).status.getLsbD k = p.status.getLsbD k

/-- A frame after scanline 0 dot 0 is exactly one interrupt: with the NMI enabled the flag is raised on dot 82181 of the
frame and on no other, and after 89342 dots the PPU is at scanline 0 again with VBlank clear (R231, R232). -/
def Obligations.OneVBlankPerFrame : Prop :=
  ∀ (p : Ppu) (n : Nat), p.dot = 0 → p.scanline = 0 → p.status.getLsbD 7 = false → p.nmiPending = false →
    n ≤ 89342 →
    (ppuAdvance n p).status.getLsbD 7 = decide (82181 ≤ n ∧ n < 89342)
    ∧ (ppuAdvance n p).nmiPending = (p.ctrl.getLsbD 7 && decide (82181 ≤ n ∧ n < 89342))

/-- The only sources of the NMI (R212): inside an instruction, a store to port 0 that turns the enable bit from 0 to 1
while VBlank is set; outside, the dot that enters scanline 241 with the enable bit set. -/
def Obligations.NmiSources : Prop :=
  (∀ (i : Instr) (s t : State), exec i s = .next t → s.ppu.nmiPending = false → t.ppu.nmiPending = true →
    ∃ r m, storeOf (opOf i) = some (r, m)
      ∧ 0x2000 ≤ (effectiveAddress m s).toNat ∧ (effectiveAddress m s).toNat ≤ 0x3FFF
      ∧ (effectiveAddress m s).toNat % 8 = 0
      ∧ s.ppu.ctrl.getLsbD 7 = false ∧ t.ppu.ctrl.getLsbD 7 = true ∧ s.ppu.status.getLsbD 7 = true)
  ∧ (∀ p : Ppu, p.nmiPending = false → (ppuDot p).nmiPending = true →
      p.ctrl.getLsbD 7 = true ∧ (ppuDot p).scanline = 241 ∧ (ppuDot p).dot = 0)

/-- The write-only and read-only ports (R241 to R247), at every address of the window. -/
def Obligations.RegisterPorts : Prop :=
  ∀ (a : Addr) (v : Byte) (s : State), 0x2000 ≤ a.toNat → a.toNat ≤ 0x3FFF →
    (a.toNat % 8 = 0 → busWrite a v s = .ok () { s with ppu := { s.ppu with
        ctrl := v
        nmiPending := s.ppu.nmiPending
          || (!s.ppu.ctrl.getLsbD 7 && v.getLsbD 7 && s.ppu.status.getLsbD 7) } })
    ∧ (a.toNat % 8 = 1 → busWrite a v s = .ok () { s with ppu := { s.ppu with mask := v } })
    ∧ (a.toNat % 8 = 2 → ∃ st : Byte, busRead a s = .ok s.ppu.status { s with ppu := { s.ppu with status := st, w := false } }
        ∧ st.toNat = s.ppu.status.toNat % 128)
    ∧ (a.toNat % 8 = 3 → busWrite a v s = .ok () { s with ppu := { s.ppu with oamAddr := v } })
    ∧ (a.toNat % 8 = 4 → busRead a s = .ok (s.ppu.oam.read s.ppu.oamAddr.toNat) s
        ∧ busWrite a v s = .ok () { s with ppu := { s.ppu with
            oam := s.ppu.oam.write s.ppu.oamAddr.toNat v
            oamAddr := s.ppu.oamAddr + 1#8 } })
    ∧ (a.toNat % 8 = 5 → busWrite a v s = .ok () { s with ppu :=
        if s.ppu.w then { s.ppu with scrollY := v, w := false } else { s.ppu with scrollX := v, w := true } })
    ∧ (a.toNat % 8 = 6 → ∃ va : BitVec 14, busWrite a v s = .ok () { s with ppu := { s.ppu with
            vramAddr := va
            w := !s.ppu.w } }
        ∧ va.toNat = if s.ppu.w then s.ppu.vramAddr.toNat / 256 * 256 + v.toNat
            else v.toNat % 64 * 256 + s.ppu.vramAddr.toNat % 256)

/-- Port 7 (R248 to R252): the increment by 1 or 32 modulo $4000, the delayed read outside the palette, the immediate read
inside it, the write to the folded nametable or the palette, and the refusal of a write to CHR. -/
def Obligations.DataPort : Prop :=
  ∀ (a : Addr) (v : Byte) (s : State), 0x2000 ≤ a.toNat → a.toNat ≤ 0x3FFF → a.toNat % 8 = 7 →
    let p := s.ppu
    let va := p.vramAddr.toNat
    ∃ next : BitVec 14, next.toNat = (va + (if p.ctrl.getLsbD 2 then 32 else 1)) % 0x4000
      ∧ ∃ nt : Nat, nt = (match s.cart.mirroring with
            | .horizontal => va % 0x1000 / 0x800
            | .vertical => va % 0x1000 / 0x400 % 2) * 0x400 + va % 0x400
      ∧ (va ≤ 0x1FFF →
          busRead a s = .ok p.readBuf { s with ppu := { p with vramAddr := next, readBuf := s.cart.chr.read va } }
          ∧ busWrite a v s = .fault (.romWrite .chr (BitVec.ofNat 16 va)) { s with ppu := { p with vramAddr := next } })
      ∧ (0x2000 ≤ va → va ≤ 0x3EFF →
          busRead a s = .ok p.readBuf { s with ppu := { p with vramAddr := next, readBuf := p.vram.read nt } }
          ∧ busWrite a v s = .ok () { s with ppu := { p with vramAddr := next, vram := p.vram.write nt v } })
      ∧ (0x3F00 ≤ va →
          busRead a s = .ok (p.pal.read (va % 32)) { s with ppu := { p with vramAddr := next } }
          ∧ busWrite a v s = .ok () { s with ppu := { p with vramAddr := next, pal := p.pal.write (va % 32) v } })
end

