-- ==== Sys2Proof/Laws/Flags.lean ====
section
/-! SUPPORT. The laws of single bits and flags: a flag written reads back, every other flag is unchanged. -/

namespace Sys2Proof.Machine

/-- Writing one bit of a byte changes that bit alone. -/
theorem getLsbD_setBit (b : Byte) (k j : Nat) (v : Bool) (hk : k < 8) :
    (setBit b k v).getLsbD j = if j = k then v else b.getLsbD j := by
  unfold setBit
  by_cases hj : j < 8
  · cases v <;> by_cases hjk : j = k
    · subst hjk; simp [hj]
    · rcases Nat.lt_or_gt_of_ne hjk with h | h
      · simp [hj, hjk, h]
      · have : j - k ≠ 0 := by omega
        simp [hj, hjk, this]
    · subst hjk; simp [hj]
    · rcases Nat.lt_or_gt_of_ne hjk with h | h
      · simp [hj, hjk, h]
      · have : j - k ≠ 0 := by omega
        simp [hj, hjk, this]
  · have hjk : j ≠ k := by omega
    have h8 : 8 ≤ j := by omega
    rw [if_neg hjk, BitVec.getLsbD_of_ge _ _ h8, BitVec.getLsbD_of_ge _ _ h8]

theorem flagBit_lt (f : Flag) : flagBit f < 8 := by cases f <;> decide

theorem flagBit_injective {f g : Flag} (h : flagBit f = flagBit g) : f = g := by
  cases f <;> cases g <;> first | rfl | exact absurd h (by decide)

/-- The flags of a status byte after one bit is written. -/
theorem flagOf_setBit (p : Byte) (f g : Flag) (v : Bool) :
    flagOf g (setBit p (flagBit f) v) = if g = f then v else flagOf g p := by
  unfold flagOf
  rw [getLsbD_setBit _ _ _ _ (flagBit_lt f)]
  by_cases h : g = f
  · subst h; simp
  · rw [if_neg h, if_neg fun hb => h (flagBit_injective hb)]

@[simp] theorem State.flag_setFlag (s : State) (f g : Flag) (v : Bool) :
    (s.setFlag f v).flag g = if g = f then v else s.flag g := flagOf_setBit s.p f g v

/-- The flags after `SetZN`. -/
theorem State.flag_setZN (s : State) (v : Byte) (g : Flag) :
    (s.setZN v).flag g = if g = .negative then v.msb else if g = .zero then v == 0#8 else s.flag g := by
  simp [State.setZN]

/-- A status byte is its eight flags. -/
theorem flags_ext {p q : Byte} (h : ∀ f, flagOf f p = flagOf f q) : p = q := by
  apply BitVec.eq_of_getLsbD_eq
  intro i hi
  have := h .carry; have := h .zero; have := h .interruptDisable; have := h .decimal
  have := h .brk; have := h .unused; have := h .overflow; have := h .negative
  simp only [flagOf, flagBit] at *
  interval_cases i <;> assumption

/-- The flags of the byte PHP and BRK push (R23). -/
theorem flagOf_statusWithBreak (p : Byte) (f : Flag) :
    flagOf f (statusWithBreak p) = if f = .brk ∨ f = .unused then true else flagOf f p := by
  cases f <;> simp [flagOf, flagBit, statusWithBreak]

/-- The flags of the byte NMI service pushes and PLP and RTI install (R23). -/
theorem flagOf_statusWithoutBreak (p : Byte) (f : Flag) :
    flagOf f (statusWithoutBreak p) = if f = .brk then false else if f = .unused then true else flagOf f p := by
  cases f <;> simp [flagOf, flagBit, statusWithoutBreak]

/-- The sum of the adder is the exact sum, narrowed (R115). -/
theorem addWithCarry_result (a m : Byte) (c : Bool) :
    (addWithCarry a m c).result.toNat = (a.toNat + m.toNat + bitNat c) % 256 := by
  simp [addWithCarry]

end Sys2Proof.Machine
end

