-- ==== Sys2Proof/Laws/Memory.lean ====
section
/-! SUPPORT. The laws of a byte store: read after write, and that every operation keeps the canonical form. -/

namespace Sys2Proof.Machine

@[simp] theorem Memory.read_nil (a : Nat) : Memory.read [] a = 0#8 := rfl

@[simp] theorem Memory.read_cons (k : Nat) (u : Byte) (m : Memory) (a : Nat) :
    Memory.read ((k, u) :: m) a = if a = k then u else Memory.read m a := rfl

@[simp] theorem Memory.wfFrom_nil (size lowest : Nat) : Memory.wfFrom size lowest [] = true := rfl

theorem Memory.wfFrom_cons (size lowest k : Nat) (u : Byte) (m : Memory) :
    Memory.wfFrom size lowest ((k, u) :: m) = true ↔
      lowest ≤ k ∧ k < size ∧ u ≠ 0#8 ∧ Memory.wfFrom size (k + 1) m = true := by
  simp [Memory.wfFrom, and_assoc]

/-- A store that is canonical from some index on is canonical from any lower index on. -/
theorem Memory.wfFrom_mono {size i j : Nat} {m : Memory} (hij : i ≤ j) (h : Memory.wfFrom size j m = true) :
    Memory.wfFrom size i m = true := by
  cases m with
  | nil => rfl
  | cons c m =>
    obtain ⟨k, u⟩ := c
    rw [Memory.wfFrom_cons] at h ⊢
    exact ⟨by omega, h.2⟩

/-- A canonical store lists nothing below its lowest index. -/
theorem Memory.read_below {size i a : Nat} {m : Memory} (h : Memory.wfFrom size i m = true) (ha : a < i) :
    m.read a = 0#8 := by
  induction m generalizing i with
  | nil => rfl
  | cons c m ih =>
    obtain ⟨k, u⟩ := c
    rw [Memory.wfFrom_cons] at h
    rw [Memory.read_cons, if_neg (by omega)]
    exact ih h.2.2.2 (by omega)

/-- A write leaves every other byte alone, whatever the store's form. -/
theorem Memory.read_write_of_ne (m : Memory) {a b : Nat} (v : Byte) (h : b ≠ a) : (m.write a v).read b = m.read b := by
  induction m with
  | nil => simp only [Memory.write]; split <;> simp [h]
  | cons c m ih =>
    obtain ⟨k, u⟩ := c
    simp only [Memory.write]
    split
    · split <;> simp [h]
    · split
      · subst_vars; split <;> simp [h]
      · simp [ih]

/-- A read after a write to the same place gives the byte written. -/
theorem Memory.read_write_of_wfFrom {size i : Nat} {m : Memory} (h : Memory.wfFrom size i m = true) (a : Nat) (v : Byte) :
    (m.write a v).read a = v := by
  induction m generalizing i with
  | nil => simp only [Memory.write]; split <;> simp_all
  | cons c m ih =>
    obtain ⟨k, u⟩ := c
    rw [Memory.wfFrom_cons] at h
    simp only [Memory.write]
    split
    · split
      · rw [Memory.read_cons, if_neg (by omega), Memory.read_below h.2.2.2 (by omega)]; simp_all
      · simp
    · split
      · split
        · rw [Memory.read_below h.2.2.2 (by omega)]; simp_all
        · simp
      · rename_i hk
        rw [Memory.read_cons, if_neg hk]
        exact ih h.2.2.2

theorem Memory.read_write_same {size : Nat} {m : Memory} (h : m.wf size = true) (a : Nat) (v : Byte) :
    (m.write a v).read a = v := Memory.read_write_of_wfFrom h a v

theorem Memory.write_wfFrom {size i a : Nat} {m : Memory} (h : Memory.wfFrom size i m = true) (hi : i ≤ a) (ha : a < size)
    (v : Byte) : Memory.wfFrom size i (m.write a v) = true := by
  induction m generalizing i with
  | nil => simp only [Memory.write]; split <;> simp_all [Memory.wfFrom_cons]
  | cons c m ih =>
    obtain ⟨k, u⟩ := c
    have hc := (Memory.wfFrom_cons size i k u m).1 h
    simp only [Memory.write]
    split
    · split
      · exact h
      · rename_i hak hv
        exact (Memory.wfFrom_cons ..).2 ⟨hi, ha, hv, (Memory.wfFrom_cons ..).2 ⟨by omega, hc.2⟩⟩
    · split
      · split
        · exact Memory.wfFrom_mono (by omega) hc.2.2.2
        · rename_i hak hv
          subst hak
          exact (Memory.wfFrom_cons ..).2 ⟨hi, ha, hv, hc.2.2.2⟩
      · exact (Memory.wfFrom_cons ..).2 ⟨hc.1, hc.2.1, hc.2.2.1, ih hc.2.2.2 (by omega)⟩

/-- A write inside the store keeps its canonical form. -/
theorem Memory.write_wf {size a : Nat} {m : Memory} (h : m.wf size = true) (ha : a < size) (v : Byte) :
    (m.write a v).wf size = true := Memory.write_wfFrom h (Nat.zero_le a) ha v

@[simp] theorem Memory.wf_nil (size : Nat) : Memory.wf size [] = true := rfl

theorem Memory.ofBytesFrom_wf {size : Nat} (bs : List Byte) (k : Nat) (h : k + bs.length ≤ size) :
    Memory.wfFrom size k (Memory.ofBytesFrom k bs) = true := by
  induction bs generalizing k with
  | nil => rfl
  | cons b bs ih =>
    have hl : k + 1 + bs.length ≤ size := by simp only [List.length_cons] at h; omega
    simp only [Memory.ofBytesFrom]
    split
    · exact Memory.wfFrom_mono (Nat.le_succ k) (ih (k + 1) hl)
    · rename_i hb
      exact (Memory.wfFrom_cons ..).2 ⟨le_refl k, by omega, hb, ih (k + 1) hl⟩

/-- The store built from a list of bytes is canonical. -/
theorem Memory.ofBytes_wf {size : Nat} (bs : List Byte) (h : bs.length ≤ size) : (Memory.ofBytes bs).wf size = true :=
  Memory.ofBytesFrom_wf bs 0 (by omega)

theorem Memory.read_ofBytesFrom (bs : List Byte) (k a : Nat) (h : k ≤ a) :
    (Memory.ofBytesFrom k bs).read a = bs.getD (a - k) 0#8 := by
  induction bs generalizing k with
  | nil => simp [Memory.ofBytesFrom]
  | cons b bs ih =>
    simp only [Memory.ofBytesFrom]
    by_cases hak : a = k
    · subst hak
      split
      · rename_i hb
        rw [Memory.read_below (Memory.ofBytesFrom_wf (size := a + 1 + bs.length) bs (a + 1) (le_refl _)) (Nat.lt_succ_self a)]
        simp [hb]
      · simp
    · have hs : a - k = a - (k + 1) + 1 := by omega
      split
      · rw [ih (k + 1) (by omega), hs, List.getD_cons_succ]
      · rw [Memory.read_cons, if_neg hak, ih (k + 1) (by omega), hs, List.getD_cons_succ]

/-- The store built from a list of bytes reads as that list, and as 0 past its end. -/
theorem Memory.read_ofBytes (bs : List Byte) (a : Nat) : (Memory.ofBytes bs).read a = bs.getD a 0#8 :=
  Memory.read_ofBytesFrom bs 0 a (Nat.zero_le a)

theorem Memory.ext_wfFrom {size : Nat} {m n : Memory} {i : Nat} (hm : Memory.wfFrom size i m = true)
    (hn : Memory.wfFrom size i n = true) (h : ∀ a, m.read a = n.read a) : m = n := by
  induction m generalizing n i with
  | nil =>
    cases n with
    | nil => rfl
    | cons c n =>
      obtain ⟨k, u⟩ := c
      have := h k
      simp only [Memory.read_nil, Memory.read_cons, if_true] at this
      exact absurd this.symm ((Memory.wfFrom_cons ..).1 hn).2.2.1
  | cons c m ih =>
    obtain ⟨k, u⟩ := c
    have hk := (Memory.wfFrom_cons ..).1 hm
    cases n with
    | nil =>
      have := h k
      simp only [Memory.read_nil, Memory.read_cons, if_true] at this
      exact absurd this hk.2.2.1
    | cons d n =>
      obtain ⟨l, w⟩ := d
      have hl := (Memory.wfFrom_cons ..).1 hn
      have hkl : k = l := by
        rcases Nat.lt_trichotomy k l with hlt | heq | hgt
        · have := h k
          rw [Memory.read_cons, if_pos rfl, Memory.read_cons, if_neg (by omega),
            Memory.read_below hl.2.2.2 (by omega)] at this
          exact absurd this hk.2.2.1
        · exact heq
        · have := h l
          rw [Memory.read_cons, if_neg (by omega), Memory.read_below hk.2.2.2 (by omega), Memory.read_cons,
            if_pos rfl] at this
          exact absurd this.symm hl.2.2.1
      subst hkl
      have huw : u = w := by simpa using h k
      subst huw
      congr 1
      refine ih hk.2.2.2 hl.2.2.2 fun a => ?_
      by_cases ha : a = k
      · subst ha
        rw [Memory.read_below hk.2.2.2 (Nat.lt_succ_self a), Memory.read_below hl.2.2.2 (Nat.lt_succ_self a)]
      · simpa [ha] using h a

/-- Two canonical stores that read alike are equal data. -/
theorem Memory.ext_of_wf {size : Nat} {m n : Memory} (hm : m.wf size = true) (hn : n.wf size = true)
    (h : ∀ a, m.read a = n.read a) : m = n := Memory.ext_wfFrom hm hn h

end Sys2Proof.Machine
end

