-- ==== Sys2Proof/Laws/Result.lean ====
section
/-! SUPPORT. The laws of a partial result: chaining, and reading an outcome back. -/

namespace Sys2Proof.Machine

variable {α β : Type}

@[simp] theorem Res.bind_ok (v : α) (s : State) (k : α → State → Res β) : (Res.ok v s).bind k = k v s := rfl

@[simp] theorem Res.bind_fault (f : Fault) (s : State) (k : α → State → Res β) :
    (Res.fault f s : Res α).bind k = .fault f s := rfl

@[simp] theorem Res.outcome_ok (v : α) (s : State) : (Res.ok v s).outcome = .next s := rfl

@[simp] theorem Res.outcome_fault (f : Fault) (s : State) : (Res.fault f s : Res α).outcome = .fault f := rfl

@[simp] theorem Res.state_ok (v : α) (s : State) : (Res.ok v s).state = s := rfl

@[simp] theorem Res.state_fault (f : Fault) (s : State) : (Res.fault f s : Res α).state = { s with fault := some f } := rfl

/-- A chain completes exactly where both its parts do. -/
theorem Res.bind_eq_ok {r : Res α} {k : α → State → Res β} {v : β} {t : State} :
    r.bind k = .ok v t ↔ ∃ u s, r = .ok u s ∧ k u s = .ok v t := by
  cases r <;> simp

/-- A next state is a completed result. -/
theorem Res.outcome_eq_next {r : Res α} {t : State} : r.outcome = .next t ↔ ∃ v, r = .ok v t := by
  cases r <;> simp

/-- A fault outcome is a faulted result. -/
theorem Res.outcome_eq_fault {r : Res α} {f : Fault} : r.outcome = .fault f ↔ ∃ t, r = .fault f t := by
  cases r <;> simp

/-- No result is a refusal. -/
theorem Res.outcome_ne_refused (r : Res α) (e : Refusal) : r.outcome ≠ .refused e := by
  cases r <;> simp [Res.outcome]

end Sys2Proof.Machine
end

