-- ==== Sys2Proof/Laws/Ppu.lean ====
section
/-! SUPPORT. What the PPU's operations can do: one dot of the timing machine, many dots, and an access to a port. -/

namespace Sys2Proof.Machine

/-! ## The timing machine -/

@[simp] theorem ppuAdvance_zero (p : Ppu) : ppuAdvance 0 p = p := rfl

theorem ppuAdvance_succ (n : Nat) (p : Ppu) : ppuAdvance (n + 1) p = ppuAdvance n (ppuDot p) := rfl

/-- Advancing is additive (R230). -/
theorem ppuAdvance_add (m n : Nat) (p : Ppu) : ppuAdvance (m + n) p = ppuAdvance n (ppuAdvance m p) := by
  induction m generalizing p with
  | zero => simp
  | succ m ih => rw [Nat.succ_add, ppuAdvance_succ, ppuAdvance_succ, ih]

/-- What a property of one dot gives for any number of dots. -/
theorem ppuAdvance_keeps {I : Ppu → Prop} (hd : ∀ p, I p → I (ppuDot p)) (n : Nat) {p : Ppu} (h : I p) :
    I (ppuAdvance n p) := by
  induction n generalizing p with
  | zero => exact h
  | succ n ih => exact ih (hd p h)

/-- What one dot can do (R230 to R232): one of four cases, each with what it leaves behind. -/
theorem ppuDot_cases (p : Ppu) :
    (p.dot + 1 ≠ dotsPerLine ∧ ppuDot p = { p with dot := p.dot + 1 })
    ∨ (p.dot + 1 = dotsPerLine ∧ p.scanline + 1 = vblankLine
        ∧ ppuDot p = vblankStart { p with dot := 0, scanline := p.scanline + 1 })
    ∨ (p.dot + 1 = dotsPerLine ∧ p.scanline + 1 = linesPerFrame
        ∧ ppuDot p = frameWrap { p with dot := 0, scanline := p.scanline + 1 })
    ∨ (p.dot + 1 = dotsPerLine ∧ p.scanline + 1 ≠ vblankLine ∧ p.scanline + 1 ≠ linesPerFrame
        ∧ ppuDot p = { p with dot := 0, scanline := p.scanline + 1 }) := by
  unfold ppuDot enterScanline
  by_cases h1 : p.dot + 1 = dotsPerLine
  · by_cases h2 : p.scanline + 1 = vblankLine
    · exact .inr (.inl ⟨h1, h2, by simp [h1, h2]⟩)
    · by_cases h3 : p.scanline + 1 = linesPerFrame
      · exact .inr (.inr (.inl ⟨h1, h3, by simp [h1, h3, linesPerFrame, vblankLine]⟩))
      · exact .inr (.inr (.inr ⟨h1, h2, h3, by simp [h1, h2, h3]⟩))
  · exact .inl ⟨h1, by simp [h1]⟩

/-- The part of the PPU the timing machine never writes. -/
def Ppu.sameRegisters (p q : Ppu) : Prop :=
  q.ctrl = p.ctrl ∧ q.mask = p.mask ∧ q.oamAddr = p.oamAddr ∧ q.scrollX = p.scrollX ∧ q.scrollY = p.scrollY
    ∧ q.vramAddr = p.vramAddr ∧ q.w = p.w ∧ q.readBuf = p.readBuf ∧ q.vram = p.vram ∧ q.pal = p.pal ∧ q.oam = p.oam

/-- One dot writes only the status, the counters and the pending flag. -/
theorem ppuDot_sameRegisters (p : Ppu) : p.sameRegisters (ppuDot p) := by
  rcases ppuDot_cases p with ⟨-, h⟩ | ⟨-, -, h⟩ | ⟨-, -, h⟩ | ⟨-, -, -, h⟩ <;> rw [h] <;>
    simp [Ppu.sameRegisters, vblankStart, frameWrap]

/-- Any number of dots writes only the status, the counters and the pending flag. -/
theorem ppuAdvance_sameRegisters (n : Nat) (p : Ppu) : p.sameRegisters (ppuAdvance n p) := by
  refine ppuAdvance_keeps (I := p.sameRegisters) (fun q hq => ?_) n (by simp [Ppu.sameRegisters])
  have hd := ppuDot_sameRegisters q
  simp only [Ppu.sameRegisters] at *
  simp [hd, hq]

/-- Writing bit 7 or bit 6 of a status whose low six bits are 0 leaves them 0. -/
theorem status_low_setBit (b : Byte) (k : Nat) (v : Bool) (hk : k = 6 ∨ k = 7) (h : b &&& 0x3F#8 = 0#8) :
    setBit b k v &&& 0x3F#8 = 0#8 := by
  rcases hk with rfl | rfl <;> cases v <;> revert b <;> decide

theorem Ppu.wf_iff (p : Ppu) : p.wf = true ↔
    p.dot < dotsPerLine ∧ p.scanline < linesPerFrame ∧ p.status &&& 0x3F#8 = 0#8
      ∧ p.vram.wf vramSize = true ∧ p.pal.wf palSize = true ∧ p.oam.wf oamSize = true := by
  simp [Ppu.wf, and_assoc]

/-! ## The ports -/

theorem ntIndex_lt (m : Mirroring) (a : BitVec 14) : ntIndex m a < vramSize := by
  have h : (a &&& 0x2FFF#14).toNat - 0x2000 < 0x1000 := by
    have : (a &&& 0x2FFF#14).toNat ≤ 0x2FFF := by
      rw [BitVec.toNat_and]; exact Nat.and_le_right
    omega
  cases m <;> simp only [ntIndex, vramSize] <;> omega

theorem palIndex_lt (a : BitVec 14) : palIndex a < palSize := Nat.mod_lt _ (by decide)

/-- What a port read can do (R240): ports 2, 4 and 7 answer, the rest are rejected. -/
theorem ppuPortRead_ok {port : BitVec 3} {s t : State} {v : Byte} (h : ppuPortRead port s = .ok v t) :
    (port = 2#3 ∧ v = s.ppu.status ∧ t = { s with ppu := afterStatusRead s.ppu })
    ∨ (port = 4#3 ∧ v = readOamData s.ppu ∧ t = s)
    ∨ (port = 7#3 ∧ v = dataReadValue s.cart s.ppu ∧ t = { s with ppu := afterDataRead s.cart s.ppu }) := by
  unfold ppuPortRead at h
  split at h
  · cases h; exact .inl ⟨‹_›, rfl, rfl⟩
  · split at h
    · cases h; exact .inr (.inl ⟨‹_›, rfl, rfl⟩)
    · split at h
      · cases h; exact .inr (.inr ⟨‹_›, rfl, rfl⟩)
      · cases h

/-- There are eight ports. -/
theorem port_cases (port : BitVec 3) :
    port = 0#3 ∨ port = 1#3 ∨ port = 2#3 ∨ port = 3#3 ∨ port = 4#3 ∨ port = 5#3 ∨ port = 6#3 ∨ port = 7#3 := by
  revert port; decide

/-- A port write that completes changes the PPU alone. -/
theorem ppuPortWrite_ok {port : BitVec 3} {v : Byte} {s t : State} {u : Unit} (h : ppuPortWrite port v s = .ok u t) :
    (port = 0#3 ∧ t = { s with ppu := writeCtrl v s.ppu })
    ∨ (port = 1#3 ∧ t = { s with ppu := writeMask v s.ppu })
    ∨ (port = 3#3 ∧ t = { s with ppu := writeOamAddr v s.ppu })
    ∨ (port = 4#3 ∧ t = { s with ppu := writeOamData v s.ppu })
    ∨ (port = 5#3 ∧ t = { s with ppu := writeScroll v s.ppu })
    ∨ (port = 6#3 ∧ t = { s with ppu := writeVramAddr v s.ppu })
    ∨ (port = 7#3 ∧ 0x2000 ≤ s.ppu.vramAddr.toNat ∧ t = { s with ppu := writeVramData s.cart v s.ppu }) := by
  rcases port_cases port with rfl | rfl | rfl | rfl | rfl | rfl | rfl | rfl
  case inr.inr.inr.inr.inr.inr.inr =>
    by_cases hc : s.ppu.vramAddr.toNat ≤ 0x1FFF
    · simp [ppuPortWrite, hc] at h
    · simp only [ppuPortWrite, hc, ite_false] at h
      cases h
      exact .inr (.inr (.inr (.inr (.inr (.inr ⟨rfl, by omega, rfl⟩)))))
  all_goals simp_all [ppuPortWrite]

end Sys2Proof.Machine
end

