-- ==== Sys2Proof/Laws/State.lean ====
section
/-! SUPPORT. One lemma per field of State and per named update: what the update writes there, or that it leaves the field
alone. Every one is true by unfolding the update once, so no later proof unfolds a record update. -/

namespace Sys2Proof.Machine

variable (s : State)

@[simp] theorem State.setA_a (v : Byte) : (s.setA v).a = v := rfl
@[simp] theorem State.setA_x (v : Byte) : (s.setA v).x = s.x := rfl
@[simp] theorem State.setA_y (v : Byte) : (s.setA v).y = s.y := rfl
@[simp] theorem State.setA_sp (v : Byte) : (s.setA v).sp = s.sp := rfl
@[simp] theorem State.setA_pc (v : Byte) : (s.setA v).pc = s.pc := rfl
@[simp] theorem State.setA_p (v : Byte) : (s.setA v).p = s.p := rfl
@[simp] theorem State.setA_cycles (v : Byte) : (s.setA v).cycles = s.cycles := rfl
@[simp] theorem State.setA_ram (v : Byte) : (s.setA v).ram = s.ram := rfl
@[simp] theorem State.setA_ppu (v : Byte) : (s.setA v).ppu = s.ppu := rfl
@[simp] theorem State.setA_cart (v : Byte) : (s.setA v).cart = s.cart := rfl
@[simp] theorem State.setA_cfg (v : Byte) : (s.setA v).cfg = s.cfg := rfl
@[simp] theorem State.setA_fault (v : Byte) : (s.setA v).fault = s.fault := rfl

@[simp] theorem State.setX_a (v : Byte) : (s.setX v).a = s.a := rfl
@[simp] theorem State.setX_x (v : Byte) : (s.setX v).x = v := rfl
@[simp] theorem State.setX_y (v : Byte) : (s.setX v).y = s.y := rfl
@[simp] theorem State.setX_sp (v : Byte) : (s.setX v).sp = s.sp := rfl
@[simp] theorem State.setX_pc (v : Byte) : (s.setX v).pc = s.pc := rfl
@[simp] theorem State.setX_p (v : Byte) : (s.setX v).p = s.p := rfl
@[simp] theorem State.setX_cycles (v : Byte) : (s.setX v).cycles = s.cycles := rfl
@[simp] theorem State.setX_ram (v : Byte) : (s.setX v).ram = s.ram := rfl
@[simp] theorem State.setX_ppu (v : Byte) : (s.setX v).ppu = s.ppu := rfl
@[simp] theorem State.setX_cart (v : Byte) : (s.setX v).cart = s.cart := rfl
@[simp] theorem State.setX_cfg (v : Byte) : (s.setX v).cfg = s.cfg := rfl
@[simp] theorem State.setX_fault (v : Byte) : (s.setX v).fault = s.fault := rfl

@[simp] theorem State.setY_a (v : Byte) : (s.setY v).a = s.a := rfl
@[simp] theorem State.setY_x (v : Byte) : (s.setY v).x = s.x := rfl
@[simp] theorem State.setY_y (v : Byte) : (s.setY v).y = v := rfl
@[simp] theorem State.setY_sp (v : Byte) : (s.setY v).sp = s.sp := rfl
@[simp] theorem State.setY_pc (v : Byte) : (s.setY v).pc = s.pc := rfl
@[simp] theorem State.setY_p (v : Byte) : (s.setY v).p = s.p := rfl
@[simp] theorem State.setY_cycles (v : Byte) : (s.setY v).cycles = s.cycles := rfl
@[simp] theorem State.setY_ram (v : Byte) : (s.setY v).ram = s.ram := rfl
@[simp] theorem State.setY_ppu (v : Byte) : (s.setY v).ppu = s.ppu := rfl
@[simp] theorem State.setY_cart (v : Byte) : (s.setY v).cart = s.cart := rfl
@[simp] theorem State.setY_cfg (v : Byte) : (s.setY v).cfg = s.cfg := rfl
@[simp] theorem State.setY_fault (v : Byte) : (s.setY v).fault = s.fault := rfl

@[simp] theorem State.setSP_a (v : Byte) : (s.setSP v).a = s.a := rfl
@[simp] theorem State.setSP_x (v : Byte) : (s.setSP v).x = s.x := rfl
@[simp] theorem State.setSP_y (v : Byte) : (s.setSP v).y = s.y := rfl
@[simp] theorem State.setSP_sp (v : Byte) : (s.setSP v).sp = v := rfl
@[simp] theorem State.setSP_pc (v : Byte) : (s.setSP v).pc = s.pc := rfl
@[simp] theorem State.setSP_p (v : Byte) : (s.setSP v).p = s.p := rfl
@[simp] theorem State.setSP_cycles (v : Byte) : (s.setSP v).cycles = s.cycles := rfl
@[simp] theorem State.setSP_ram (v : Byte) : (s.setSP v).ram = s.ram := rfl
@[simp] theorem State.setSP_ppu (v : Byte) : (s.setSP v).ppu = s.ppu := rfl
@[simp] theorem State.setSP_cart (v : Byte) : (s.setSP v).cart = s.cart := rfl
@[simp] theorem State.setSP_cfg (v : Byte) : (s.setSP v).cfg = s.cfg := rfl
@[simp] theorem State.setSP_fault (v : Byte) : (s.setSP v).fault = s.fault := rfl

@[simp] theorem State.setP_a (v : Byte) : (s.setP v).a = s.a := rfl
@[simp] theorem State.setP_x (v : Byte) : (s.setP v).x = s.x := rfl
@[simp] theorem State.setP_y (v : Byte) : (s.setP v).y = s.y := rfl
@[simp] theorem State.setP_sp (v : Byte) : (s.setP v).sp = s.sp := rfl
@[simp] theorem State.setP_pc (v : Byte) : (s.setP v).pc = s.pc := rfl
@[simp] theorem State.setP_p (v : Byte) : (s.setP v).p = v := rfl
@[simp] theorem State.setP_cycles (v : Byte) : (s.setP v).cycles = s.cycles := rfl
@[simp] theorem State.setP_ram (v : Byte) : (s.setP v).ram = s.ram := rfl
@[simp] theorem State.setP_ppu (v : Byte) : (s.setP v).ppu = s.ppu := rfl
@[simp] theorem State.setP_cart (v : Byte) : (s.setP v).cart = s.cart := rfl
@[simp] theorem State.setP_cfg (v : Byte) : (s.setP v).cfg = s.cfg := rfl
@[simp] theorem State.setP_fault (v : Byte) : (s.setP v).fault = s.fault := rfl

@[simp] theorem State.setPC_a (w : Addr) : (s.setPC w).a = s.a := rfl
@[simp] theorem State.setPC_x (w : Addr) : (s.setPC w).x = s.x := rfl
@[simp] theorem State.setPC_y (w : Addr) : (s.setPC w).y = s.y := rfl
@[simp] theorem State.setPC_sp (w : Addr) : (s.setPC w).sp = s.sp := rfl
@[simp] theorem State.setPC_pc (w : Addr) : (s.setPC w).pc = w := rfl
@[simp] theorem State.setPC_p (w : Addr) : (s.setPC w).p = s.p := rfl
@[simp] theorem State.setPC_cycles (w : Addr) : (s.setPC w).cycles = s.cycles := rfl
@[simp] theorem State.setPC_ram (w : Addr) : (s.setPC w).ram = s.ram := rfl
@[simp] theorem State.setPC_ppu (w : Addr) : (s.setPC w).ppu = s.ppu := rfl
@[simp] theorem State.setPC_cart (w : Addr) : (s.setPC w).cart = s.cart := rfl
@[simp] theorem State.setPC_cfg (w : Addr) : (s.setPC w).cfg = s.cfg := rfl
@[simp] theorem State.setPC_fault (w : Addr) : (s.setPC w).fault = s.fault := rfl

@[simp] theorem State.addCycles_a (n : Nat) : (s.addCycles n).a = s.a := rfl
@[simp] theorem State.addCycles_x (n : Nat) : (s.addCycles n).x = s.x := rfl
@[simp] theorem State.addCycles_y (n : Nat) : (s.addCycles n).y = s.y := rfl
@[simp] theorem State.addCycles_sp (n : Nat) : (s.addCycles n).sp = s.sp := rfl
@[simp] theorem State.addCycles_pc (n : Nat) : (s.addCycles n).pc = s.pc := rfl
@[simp] theorem State.addCycles_p (n : Nat) : (s.addCycles n).p = s.p := rfl
@[simp] theorem State.addCycles_cycles (n : Nat) : (s.addCycles n).cycles = s.cycles + n := rfl
@[simp] theorem State.addCycles_ram (n : Nat) : (s.addCycles n).ram = s.ram := rfl
@[simp] theorem State.addCycles_ppu (n : Nat) : (s.addCycles n).ppu = s.ppu := rfl
@[simp] theorem State.addCycles_cart (n : Nat) : (s.addCycles n).cart = s.cart := rfl
@[simp] theorem State.addCycles_cfg (n : Nat) : (s.addCycles n).cfg = s.cfg := rfl
@[simp] theorem State.addCycles_fault (n : Nat) : (s.addCycles n).fault = s.fault := rfl

@[simp] theorem State.writeRam_a (k : Nat) (v : Byte) : (s.writeRam k v).a = s.a := rfl
@[simp] theorem State.writeRam_x (k : Nat) (v : Byte) : (s.writeRam k v).x = s.x := rfl
@[simp] theorem State.writeRam_y (k : Nat) (v : Byte) : (s.writeRam k v).y = s.y := rfl
@[simp] theorem State.writeRam_sp (k : Nat) (v : Byte) : (s.writeRam k v).sp = s.sp := rfl
@[simp] theorem State.writeRam_pc (k : Nat) (v : Byte) : (s.writeRam k v).pc = s.pc := rfl
@[simp] theorem State.writeRam_p (k : Nat) (v : Byte) : (s.writeRam k v).p = s.p := rfl
@[simp] theorem State.writeRam_cycles (k : Nat) (v : Byte) : (s.writeRam k v).cycles = s.cycles := rfl
@[simp] theorem State.writeRam_ram (k : Nat) (v : Byte) : (s.writeRam k v).ram = s.ram.write k v := rfl
@[simp] theorem State.writeRam_ppu (k : Nat) (v : Byte) : (s.writeRam k v).ppu = s.ppu := rfl
@[simp] theorem State.writeRam_cart (k : Nat) (v : Byte) : (s.writeRam k v).cart = s.cart := rfl
@[simp] theorem State.writeRam_cfg (k : Nat) (v : Byte) : (s.writeRam k v).cfg = s.cfg := rfl
@[simp] theorem State.writeRam_fault (k : Nat) (v : Byte) : (s.writeRam k v).fault = s.fault := rfl

@[simp] theorem State.advancePpu_a (n : Nat) : (s.advancePpu n).a = s.a := rfl
@[simp] theorem State.advancePpu_x (n : Nat) : (s.advancePpu n).x = s.x := rfl
@[simp] theorem State.advancePpu_y (n : Nat) : (s.advancePpu n).y = s.y := rfl
@[simp] theorem State.advancePpu_sp (n : Nat) : (s.advancePpu n).sp = s.sp := rfl
@[simp] theorem State.advancePpu_pc (n : Nat) : (s.advancePpu n).pc = s.pc := rfl
@[simp] theorem State.advancePpu_p (n : Nat) : (s.advancePpu n).p = s.p := rfl
@[simp] theorem State.advancePpu_cycles (n : Nat) : (s.advancePpu n).cycles = s.cycles := rfl
@[simp] theorem State.advancePpu_ram (n : Nat) : (s.advancePpu n).ram = s.ram := rfl
@[simp] theorem State.advancePpu_ppu (n : Nat) : (s.advancePpu n).ppu = ppuAdvance n s.ppu := rfl
@[simp] theorem State.advancePpu_cart (n : Nat) : (s.advancePpu n).cart = s.cart := rfl
@[simp] theorem State.advancePpu_cfg (n : Nat) : (s.advancePpu n).cfg = s.cfg := rfl
@[simp] theorem State.advancePpu_fault (n : Nat) : (s.advancePpu n).fault = s.fault := rfl

@[simp] theorem State.setFlag_a (f : Flag) (v : Bool) : (s.setFlag f v).a = s.a := rfl
@[simp] theorem State.setFlag_x (f : Flag) (v : Bool) : (s.setFlag f v).x = s.x := rfl
@[simp] theorem State.setFlag_y (f : Flag) (v : Bool) : (s.setFlag f v).y = s.y := rfl
@[simp] theorem State.setFlag_sp (f : Flag) (v : Bool) : (s.setFlag f v).sp = s.sp := rfl
@[simp] theorem State.setFlag_pc (f : Flag) (v : Bool) : (s.setFlag f v).pc = s.pc := rfl
@[simp] theorem State.setFlag_p (f : Flag) (v : Bool) : (s.setFlag f v).p = setBit s.p (flagBit f) v := rfl
@[simp] theorem State.setFlag_cycles (f : Flag) (v : Bool) : (s.setFlag f v).cycles = s.cycles := rfl
@[simp] theorem State.setFlag_ram (f : Flag) (v : Bool) : (s.setFlag f v).ram = s.ram := rfl
@[simp] theorem State.setFlag_ppu (f : Flag) (v : Bool) : (s.setFlag f v).ppu = s.ppu := rfl
@[simp] theorem State.setFlag_cart (f : Flag) (v : Bool) : (s.setFlag f v).cart = s.cart := rfl
@[simp] theorem State.setFlag_cfg (f : Flag) (v : Bool) : (s.setFlag f v).cfg = s.cfg := rfl
@[simp] theorem State.setFlag_fault (f : Flag) (v : Bool) : (s.setFlag f v).fault = s.fault := rfl

end Sys2Proof.Machine
end

