-- ==== Sys2Proof/Laws/Ops.lean ====
section
/-! SUPPORT. What each shared operation over the bus, the stack and the vectors can do, said once. The stack and the
vectors never fault (20_memory R58, R52), so their laws are equations. -/

namespace Sys2Proof.Machine

/-! ## Bytes and words -/

theorem word_toNat (l h : Byte) : (word l h).toNat = h.toNat * 256 + l.toNat := by
  have hl := l.isLt
  simp only [word, BitVec.toNat_append]
  rw [Nat.shiftLeft_eq, ← Nat.shiftLeft_eq, ← Nat.shiftLeft_add_eq_or_of_lt hl, Nat.shiftLeft_eq]

@[simp] theorem lo_word (l h : Byte) : lo (word l h) = l := by
  apply BitVec.eq_of_toNat_eq
  have hl := l.isLt
  have hh := h.isLt
  simp only [lo, BitVec.toNat_setWidth, word_toNat]
  omega

@[simp] theorem hi_word (l h : Byte) : hi (word l h) = h := by
  apply BitVec.eq_of_toNat_eq
  have hl := l.isLt
  have hh := h.isLt
  simp only [hi, BitVec.toNat_setWidth, BitVec.toNat_ushiftRight, word_toNat, Nat.shiftRight_eq_div_pow]
  omega

@[simp] theorem word_lo_hi (w : Addr) : word (lo w) (hi w) = w := by
  apply BitVec.eq_of_toNat_eq
  have hw := w.isLt
  simp only [lo, hi, BitVec.toNat_setWidth, BitVec.toNat_ushiftRight, word_toNat, Nat.shiftRight_eq_div_pow]
  omega

theorem zext16_toNat (b : Byte) : (zext16 b).toNat = b.toNat := by
  have := b.isLt
  simp only [zext16, BitVec.toNat_setWidth]
  omega

theorem ramIndex_lt (a : Addr) : ramIndex a < ramSize := Nat.mod_lt _ (by decide)

theorem prgOffset_lt (size : PrgSize) (a : Addr) : prgOffset size a < prgBytes size :=
  Nat.mod_lt _ (by cases size <;> decide)

/-! ## The bus -/

theorem busRead_ram {a : Addr} (s : State) (h : a.toNat ≤ 0x1FFF) : busRead a s = .ok (s.ram.read (ramIndex a)) s := by
  simp [busRead, h]

theorem busRead_port {a : Addr} (s : State) (h1 : 0x2000 ≤ a.toNat) (h2 : a.toNat ≤ 0x3FFF) :
    busRead a s = ppuPortRead (portOf a) s := by
  simp [busRead, h2, show ¬a.toNat ≤ 0x1FFF by omega]

theorem busRead_prg {a : Addr} (s : State) (h : 0x8000 ≤ a.toNat) : busRead a s = .ok (prgRead s.cart a) s := by
  simp [busRead, h, show ¬a.toNat ≤ 0x1FFF by omega, show ¬a.toNat ≤ 0x3FFF by omega]

theorem busRead_outOfRange {a : Addr} (s : State) (h1 : 0x4000 ≤ a.toNat) (h2 : a.toNat ≤ 0x7FFF) :
    busRead a s = outOfRangeRead a s := by
  simp [busRead, show ¬a.toNat ≤ 0x1FFF by omega, show ¬a.toNat ≤ 0x3FFF by omega, show ¬0x8000 ≤ a.toNat by omega]

/-- Everything a completed bus read can do: it changes nothing, or it is a read of port 2 or of port 7 (R51). -/
theorem busRead_ok {a : Addr} {s t : State} {v : Byte} (h : busRead a s = .ok v t) :
    t = s
    ∨ (0x2000 ≤ a.toNat ∧ a.toNat ≤ 0x3FFF ∧ portOf a = 2#3 ∧ v = s.ppu.status
        ∧ t = { s with ppu := afterStatusRead s.ppu })
    ∨ (0x2000 ≤ a.toNat ∧ a.toNat ≤ 0x3FFF ∧ portOf a = 7#3 ∧ v = dataReadValue s.cart s.ppu
        ∧ t = { s with ppu := afterDataRead s.cart s.ppu }) := by
  unfold busRead at h
  split at h
  · cases h; exact .inl rfl
  · split at h
    · rcases ppuPortRead_ok h with ⟨h1, h2, h3⟩ | ⟨-, -, h3⟩ | ⟨h1, h2, h3⟩
      · exact .inr (.inl ⟨by omega, ‹_›, h1, h2, h3⟩)
      · exact .inl h3
      · exact .inr (.inr ⟨by omega, ‹_›, h1, h2, h3⟩)
    · split at h
      · cases h; exact .inl rfl
      · unfold outOfRangeRead at h
        split at h
        · cases h
        · cases h; exact .inl rfl

/-- A completed bus read changes the PPU at most. -/
theorem busRead_ok_ppu {a : Addr} {s t : State} {v : Byte} (h : busRead a s = .ok v t) : t = { s with ppu := t.ppu } := by
  rcases busRead_ok h with rfl | ⟨-, -, -, -, rfl⟩ | ⟨-, -, -, -, rfl⟩ <;> rfl

/-- A read outside the PPU window changes nothing (R51). -/
theorem busRead_outside {a : Addr} {s t : State} {v : Byte} (h : busRead a s = .ok v t) (ha : outsidePpu a = true) :
    t = s := by
  simp only [outsidePpu, Bool.or_eq_true, decide_eq_true_eq] at ha
  rcases busRead_ok h with rfl | ⟨h1, h2, -⟩ | ⟨h1, h2, -⟩
  · rfl
  · omega
  · omega

/-- Reads complete exactly where `busReadable` says. -/
theorem busRead_completes (a : Addr) (s : State) : (∃ v t, busRead a s = .ok v t) ↔ busReadable a s = true := by
  unfold busRead busReadable
  by_cases h1 : a.toNat ≤ 0x1FFF
  · simp [h1]
  · by_cases h2 : a.toNat ≤ 0x3FFF
    · simp only [h1, h2, ite_true, ite_false, ppuPortRead]
      rcases port_cases (portOf a) with h | h | h | h | h | h | h | h <;> simp [h]
    · by_cases h3 : 0x8000 ≤ a.toNat
      · simp [h1, h2, h3]
      · simp only [h1, h2, h3, ite_false, outOfRangeRead]
        cases s.cfg.oorPolicy <;> simp

theorem busWrite_ram {a : Addr} (v : Byte) (s : State) (h : a.toNat ≤ 0x1FFF) :
    busWrite a v s = .ok () (s.writeRam (ramIndex a) v) := by simp [busWrite, h]

theorem busWrite_port {a : Addr} (v : Byte) (s : State) (h1 : 0x2000 ≤ a.toNat) (h2 : a.toNat ≤ 0x3FFF) :
    busWrite a v s = ppuPortWrite (portOf a) v s := by
  simp [busWrite, h2, show ¬a.toNat ≤ 0x1FFF by omega]

theorem busWrite_dma (v : Byte) (s : State) : busWrite 0x4014#16 v s = oamDma v s := by
  simp [busWrite]

theorem busWrite_prg {a : Addr} (v : Byte) (s : State) (h : 0x8000 ≤ a.toNat) :
    busWrite a v s = .fault (.romWrite .prg a) s := by
  have hne : a ≠ 0x4014#16 := by rintro rfl; revert h; decide
  simp [busWrite, h, hne, show ¬a.toNat ≤ 0x1FFF by omega, show ¬a.toNat ≤ 0x3FFF by omega]

theorem busWrite_outOfRange {a : Addr} (v : Byte) (s : State) (h1 : 0x4000 ≤ a.toNat) (h2 : a.toNat ≤ 0x7FFF)
    (h3 : a ≠ 0x4014#16) : busWrite a v s = outOfRangeWrite a s := by
  simp [busWrite, h3, show ¬a.toNat ≤ 0x1FFF by omega, show ¬a.toNat ≤ 0x3FFF by omega, show ¬0x8000 ≤ a.toNat by omega]

/-- A completed copy loop changes the PPU alone (R50). -/
theorem oamCopy_ok {base : Addr} {is : List Nat} {s t : State} {u : Unit} (h : oamCopy base is s = .ok u t) :
    t = { s with ppu := t.ppu } := by
  induction is generalizing s with
  | nil => cases h; rfl
  | cons i is ih =>
    obtain ⟨b, s1, h1, h2⟩ := Res.bind_eq_ok.1 h
    rw [ih h2, busRead_ok_ppu h1]

/-- A completed OAM-DMA changes the PPU and the cycle counter alone (R50). -/
theorem oamDma_ok {v : Byte} {s t : State} {u : Unit} (h : oamDma v s = .ok u t) :
    t = { s with ppu := t.ppu, cycles := s.cycles + s.cfg.oamDmaCycles } := by
  obtain ⟨b, s1, h1, h2⟩ := Res.bind_eq_ok.1 h
  cases h2
  rw [oamCopy_ok h1]
  rfl

/-- Everything a completed bus write can do: RAM, a PPU port, an OAM-DMA, or nothing (R45). -/
theorem busWrite_ok {a : Addr} {v : Byte} {s t : State} {u : Unit} (h : busWrite a v s = .ok u t) :
    (a.toNat ≤ 0x1FFF ∧ t = s.writeRam (ramIndex a) v)
    ∨ (0x2000 ≤ a.toNat ∧ a.toNat ≤ 0x3FFF ∧ ppuPortWrite (portOf a) v s = .ok u t)
    ∨ (a = 0x4014#16 ∧ oamDma v s = .ok u t)
    ∨ (0x4000 ≤ a.toNat ∧ a.toNat ≤ 0x7FFF ∧ a ≠ 0x4014#16 ∧ s.cfg.oorPolicy = .degrade ∧ t = s) := by
  unfold busWrite at h
  split at h
  · cases h; exact .inl ⟨‹_›, rfl⟩
  · split at h
    · exact .inr (.inl ⟨by omega, ‹_›, h⟩)
    · split at h
      · exact .inr (.inr (.inl ⟨‹_›, h⟩))
      · split at h
        · cases h
        · unfold outOfRangeWrite at h
          split at h
          · cases h
          · cases h; exact .inr (.inr (.inr ⟨by omega, by omega, ‹_›, ‹_›, rfl⟩))

/-- A completed bus write changes RAM, the PPU and the cycle counter at most. -/
theorem busWrite_ok_parts {a : Addr} {v : Byte} {s t : State} {u : Unit} (h : busWrite a v s = .ok u t) :
    t = { s with ram := t.ram, ppu := t.ppu, cycles := t.cycles } := by
  rcases busWrite_ok h with ⟨-, rfl⟩ | ⟨-, -, h⟩ | ⟨-, h⟩ | ⟨-, -, -, -, rfl⟩
  · rfl
  · rcases ppuPortWrite_ok h with ⟨-, rfl⟩ | ⟨-, rfl⟩ | ⟨-, rfl⟩ | ⟨-, rfl⟩ | ⟨-, rfl⟩ | ⟨-, rfl⟩ | ⟨-, -, rfl⟩ <;> rfl
  · rw [oamDma_ok h]
  · rfl

/-! ## The stack and the vectors -/

theorem stackAddr_toNat (sp : Byte) : (stackAddr sp).toNat = 256 + sp.toNat := by
  rw [stackAddr, word_toNat]; simp

theorem ramIndex_stackAddr (sp : Byte) : ramIndex (stackAddr sp) = 256 + sp.toNat := by
  have := sp.isLt
  rw [ramIndex, stackAddr_toNat]; omega

/-- A push (R55): the byte goes to page 1 of RAM, SP decrements; it never faults. -/
theorem push8_eq (v : Byte) (s : State) : push8 v s = .ok () ((s.writeRam (256 + s.sp.toNat) v).setSP (s.sp - 1#8)) := by
  have := s.sp.isLt
  rw [push8, busWrite_ram _ _ (by rw [stackAddr_toNat]; omega), ramIndex_stackAddr]
  rfl

/-- A pull (R56): SP increments, the byte comes from page 1 of RAM; it never faults. -/
theorem pull8_eq (s : State) :
    pull8 s = .ok (s.ram.read (256 + (s.sp + 1#8).toNat)) (s.setSP (s.sp + 1#8)) := by
  have := (s.sp + 1#8).isLt
  rw [pull8, busRead_ram _ (by rw [stackAddr_toNat]; omega), ramIndex_stackAddr]
  rfl

/-- The state after a word is pushed (R57). -/
def State.pushed16 (w : Addr) (s : State) : State :=
  { s with
    ram := (s.ram.write (256 + s.sp.toNat) (hi w)).write (256 + (s.sp - 1#8).toNat) (lo w)
    sp := s.sp - 2#8 }

@[simp] theorem State.pushed16_a (w : Addr) (s : State) : (s.pushed16 w).a = s.a := rfl
@[simp] theorem State.pushed16_x (w : Addr) (s : State) : (s.pushed16 w).x = s.x := rfl
@[simp] theorem State.pushed16_y (w : Addr) (s : State) : (s.pushed16 w).y = s.y := rfl
@[simp] theorem State.pushed16_pc (w : Addr) (s : State) : (s.pushed16 w).pc = s.pc := rfl
@[simp] theorem State.pushed16_p (w : Addr) (s : State) : (s.pushed16 w).p = s.p := rfl
@[simp] theorem State.pushed16_cycles (w : Addr) (s : State) : (s.pushed16 w).cycles = s.cycles := rfl
@[simp] theorem State.pushed16_ppu (w : Addr) (s : State) : (s.pushed16 w).ppu = s.ppu := rfl
@[simp] theorem State.pushed16_cart (w : Addr) (s : State) : (s.pushed16 w).cart = s.cart := rfl
@[simp] theorem State.pushed16_cfg (w : Addr) (s : State) : (s.pushed16 w).cfg = s.cfg := rfl
@[simp] theorem State.pushed16_fault (w : Addr) (s : State) : (s.pushed16 w).fault = s.fault := rfl
@[simp] theorem State.pushed16_sp (w : Addr) (s : State) : (s.pushed16 w).sp = s.sp - 2#8 := rfl
@[simp] theorem State.pushed16_ram (w : Addr) (s : State) : (s.pushed16 w).ram =
    (s.ram.write (256 + s.sp.toNat) (hi w)).write (256 + (s.sp - 1#8).toNat) (lo w) := rfl

theorem push16_eq (w : Addr) (s : State) : push16 w s = .ok () (s.pushed16 w) := by
  have h : s.sp - 1#8 - 1#8 = s.sp - 2#8 := by bv_omega
  simp only [push16, push8_eq, Res.bind_ok, State.setSP_sp, State.pushed16, h]
  rfl

theorem pull16_eq (s : State) : pull16 s =
    .ok (word (s.ram.read (256 + (s.sp + 1#8).toNat)) (s.ram.read (256 + (s.sp + 2#8).toNat))) (s.setSP (s.sp + 2#8)) := by
  have h : s.sp + 1#8 + 1#8 = s.sp + 2#8 := by bv_omega
  simp only [pull16, pull8_eq, Res.bind_ok, State.setSP_sp, State.setSP_ram, h]
  rfl

/-- A vector is two bytes of PRG (R52). -/
theorem readVector_eq (a : Addr) (s : State) (h1 : 0x8000 ≤ a.toNat) (h2 : 0x8000 ≤ (a + 1#16).toNat) :
    readVector a s = .ok (word (prgRead s.cart a) (prgRead s.cart (a + 1#16))) s := by
  rw [readVector, busRead_prg s h1, Res.bind_ok, busRead_prg s h2, Res.bind_ok]

/-- The state after an entry through a vector (R216). -/
def State.interrupted (ret : Addr) (status : Byte) (vector : Addr) (dots : Nat) (s : State) : State :=
  { s with
    ram := ((s.ram.write (256 + s.sp.toNat) (hi ret)).write (256 + (s.sp - 1#8).toNat) (lo ret)).write
      (256 + (s.sp - 2#8).toNat) status
    sp := s.sp - 3#8
    p := setBit s.p (flagBit .interruptDisable) true
    ppu := ppuAdvance dots s.ppu
    pc := word (prgRead s.cart vector) (prgRead s.cart (vector + 1#16)) }

section interrupted

variable (ret : Addr) (status : Byte) (vector : Addr) (dots : Nat) (s : State)

@[simp] theorem State.interrupted_a : (s.interrupted ret status vector dots).a = s.a := rfl
@[simp] theorem State.interrupted_x : (s.interrupted ret status vector dots).x = s.x := rfl
@[simp] theorem State.interrupted_y : (s.interrupted ret status vector dots).y = s.y := rfl
@[simp] theorem State.interrupted_cycles : (s.interrupted ret status vector dots).cycles = s.cycles := rfl
@[simp] theorem State.interrupted_cart : (s.interrupted ret status vector dots).cart = s.cart := rfl
@[simp] theorem State.interrupted_cfg : (s.interrupted ret status vector dots).cfg = s.cfg := rfl
@[simp] theorem State.interrupted_fault : (s.interrupted ret status vector dots).fault = s.fault := rfl
@[simp] theorem State.interrupted_sp : (s.interrupted ret status vector dots).sp = s.sp - 3#8 := rfl
@[simp] theorem State.interrupted_pc : (s.interrupted ret status vector dots).pc =
    word (prgRead s.cart vector) (prgRead s.cart (vector + 1#16)) := rfl
@[simp] theorem State.interrupted_p : (s.interrupted ret status vector dots).p =
    setBit s.p (flagBit .interruptDisable) true := rfl
@[simp] theorem State.interrupted_ppu : (s.interrupted ret status vector dots).ppu = ppuAdvance dots s.ppu := rfl
@[simp] theorem State.interrupted_ram : (s.interrupted ret status vector dots).ram =
    ((s.ram.write (256 + s.sp.toNat) (hi ret)).write (256 + (s.sp - 1#8).toNat) (lo ret)).write
      (256 + (s.sp - 2#8).toNat) status := rfl

end interrupted

/-- Taking an interrupt or trap never faults (R185, R210). -/
theorem takeInterrupt_eq (ret : Addr) (status : Byte) (vector : Addr) (dots : Nat) (s : State)
    (h1 : 0x8000 ≤ vector.toNat) (h2 : 0x8000 ≤ (vector + 1#16).toNat) :
    takeInterrupt ret status vector dots s = .ok () (s.interrupted ret status vector dots) := by
  have h : s.sp - 2#8 - 1#8 = s.sp - 3#8 := by bv_omega
  have hsp : (s.pushed16 ret).sp = s.sp - 2#8 := rfl
  simp only [takeInterrupt, push16_eq, Res.bind_ok, push8_eq, readVector_eq _ _ h1 h2, hsp, h]
  rfl

theorem nmiService_eq (s : State) : nmiService s = .ok ()
    ({ s with ppu := { s.ppu with nmiPending := false } }.interrupted s.pc (statusWithoutBreak s.p) nmiVector
      s.cfg.nmiExtraDots) := takeInterrupt_eq _ _ _ _ _ (by decide) (by decide)

theorem softwareTrap_eq (s : State) :
    softwareTrap s = .ok () (s.interrupted (s.pc + 1#16) (statusWithBreak s.p) brkVector 0) :=
  takeInterrupt_eq _ _ _ _ _ (by decide) (by decide)

/-- The return from an interrupt never faults (R186). -/
theorem returnFromInterrupt_eq (s : State) : returnFromInterrupt s = .ok ()
    (((s.setP (statusWithoutBreak (s.ram.read (256 + (s.sp + 1#8).toNat)))).setSP (s.sp + 3#8)).setPC
      (word (s.ram.read (256 + (s.sp + 2#8).toNat)) (s.ram.read (256 + (s.sp + 3#8).toNat)))) := by
  have h2 : s.sp + 1#8 + 1#8 = s.sp + 2#8 := by bv_omega
  have h3 : s.sp + 1#8 + 2#8 = s.sp + 3#8 := by bv_omega
  simp only [returnFromInterrupt, pull8_eq, Res.bind_ok, pull16_eq, State.setP_sp, State.setSP_sp, State.setP_ram,
    State.setSP_ram, h2, h3]
  rfl

/-- The reset vector is read as the bus reads it (70_reset_and_hazards R262). -/
theorem resetFrom_pc (r : State) : readVector resetVector r = .ok (State.resetFrom r).pc r :=
  readVector_eq _ _ (by decide) (by decide)

end Sys2Proof.Machine
end

