-- ==== Sys2Proof/Laws/Operands.lean ====
section
/-! SUPPORT. What the operand forms can do, said once: the page-zero pointers, reading an operand, storing, modifying,
branching, jumping through a pointer. -/

namespace Sys2Proof.Machine

/-- A page-zero byte is what the bus reads there, and the read changes nothing (30_encoding R84, R85, R44). -/
theorem zeroPageByte_bus (z : Byte) (s : State) : busRead (zext16 z) s = .ok (zeroPageByte z s) s := by
  have := z.isLt
  rw [busRead_ram s (by rw [zext16_toNat]; omega), ramIndex, zext16_toNat, Nat.mod_eq_of_lt (by omega)]
  rfl

/-- Reading an inline operand changes nothing (R75). -/
@[simp] theorem readOperand_imm (v : Byte) (s : State) : readOperand (.imm v) s = .ok v s := rfl

/-- A completed operand read changes the PPU and adds the page-cross cycle, no more. -/
theorem readOperand_ok {src : Source} {s t : State} {v : Byte} (h : readOperand src s = .ok v t) :
    t = { s with ppu := t.ppu, cycles := t.cycles } ∧ s.cycles ≤ t.cycles ∧ t.cycles ≤ s.cycles + 1 := by
  cases src with
  | imm w => cases h; exact ⟨rfl, le_refl _, Nat.le_succ _⟩
  | mem m =>
    have hp := busRead_ok_ppu h
    rw [hp]
    refine ⟨rfl, Nat.le_add_right _ _, ?_⟩
    simp only [State.addCycles, pageCrossCycles]
    split
    · omega
    · split <;> omega

/-- Operands can be read exactly where `sourceReadable` says. -/
theorem readOperand_completes (src : Source) (s : State) :
    (∃ v t, readOperand src s = .ok v t) ↔ sourceReadable src s = true := by
  cases src with
  | imm v => simp [sourceReadable]
  | mem m => exact busRead_completes _ _

/-- A branch never faults once its offset is fetched (43_control_flow R146). -/
theorem branchIf_eq (cond : Bool) (off : Byte) (s : State) : branchIf cond off s = .ok () (if cond then
    (s.addCycles (1 + pageCrossCycles s.pc (branchTarget off s) s)).setPC (branchTarget off s) else s) := by
  cases cond <;> rfl

/-- A completed store is a completed bus write at the effective address (30_encoding R86). -/
theorem storeOperand_ok {v : Byte} {m : MemOperand} {s t : State} {u : Unit} (h : storeOperand v m s = .ok u t) :
    busWrite (effectiveAddress m s) v s = .ok u t := h

/-- A completed read-modify-write is one read and one write at the same address, then Z and N (R86). -/
theorem modifyMemory_ok {f : Byte → Byte} {m : MemOperand} {s t : State} {u : Unit} (h : modifyMemory f m s = .ok u t) :
    ∃ v s1 s2, busRead (effectiveAddress m s) s = .ok v s1 ∧ busWrite (effectiveAddress m s) (f v) s1 = .ok () s2
      ∧ t = s2.setZN (f v) := by
  obtain ⟨v, s1, h1, h2⟩ := Res.bind_eq_ok.1 h
  obtain ⟨_, s2, h3, h4⟩ := Res.bind_eq_ok.1 h2
  cases h4
  exact ⟨v, s1, s2, h1, h3, rfl⟩

/-- A completed shift of memory is one read and one write at the same address, then C, Z and N (42_shift_rotate R135). -/
theorem shiftOperand_mem_ok {f : Byte → Bool → Shifted} {m : MemOperand} {s t : State} {u : Unit}
    (h : shiftOperand f (.mem m) s = .ok u t) :
    ∃ v s1 s2, busRead (effectiveAddress m s) s = .ok v s1
      ∧ busWrite (effectiveAddress m s) (f v (s1.flag .carry)).result s1 = .ok () s2
      ∧ t = (s2.setFlag .carry (f v (s1.flag .carry)).carry).setZN (f v (s1.flag .carry)).result := by
  obtain ⟨v, s1, h1, h2⟩ := Res.bind_eq_ok.1 h
  obtain ⟨_, s2, h3, h4⟩ := Res.bind_eq_ok.1 h2
  cases h4
  exact ⟨v, s1, s2, h1, h3, rfl⟩

/-- A completed pointer read changes the PPU alone (30_encoding R83). -/
theorem indirectTarget_ok {ptr w : Addr} {s t : State} (h : indirectTarget ptr s = .ok w t) :
    t = { s with ppu := t.ppu } := by
  obtain ⟨l, s1, h1, h2⟩ := Res.bind_eq_ok.1 h
  obtain ⟨g, s2, h3, h4⟩ := Res.bind_eq_ok.1 h2
  cases h4
  rw [busRead_ok_ppu h3, busRead_ok_ppu h1]

theorem hi_toNat (w : Addr) : (hi w).toNat = w.toNat / 256 := by
  have := w.isLt
  simp only [hi, BitVec.toNat_setWidth, BitVec.toNat_ushiftRight, Nat.shiftRight_eq_div_pow]
  omega

/-- The page-cross cycle in terms of addresses as numbers (R88). -/
theorem pageCrossCycles_eq (base ea : Addr) (s : State) : pageCrossCycles base ea s = crossing base ea s := by
  have h : hi base = hi ea ↔ base.toNat / 256 = ea.toNat / 256 := by
    rw [← hi_toNat, ← hi_toNat]; exact BitVec.toNat_inj.symm
  unfold pageCrossCycles crossing
  cases s.cfg.pageCross <;> simp [h]

/-- `SetZN(v)` writes P alone, as `setsZN` says (10_state R27). -/
theorem setZN_spec (s : State) (v : Byte) : ∃ p', s.setZN v = { s with p := p' } ∧ setsZN s.p p' v := by
  refine ⟨(s.setZN v).p, rfl, fun f => ?_⟩
  have h := State.flag_setZN s v f
  simp only [State.flag] at h
  rw [h, show v.msb = v.getLsbD 7 by simp [BitVec.msb_eq_getLsbD_last]]
  cases f <;> simp
  rfl

end Sys2Proof.Machine
end

