-- ==== Sys2Proof/Laws/Exec.lean ====
section
/-! SUPPORT. exec row by row is the rule of the row's mnemonic run on its operand (30_encoding R72, "Dispatch on mnemonic").
Later proofs split on the 57 mnemonics of `Op`, not on the 152 constructors of Instr. -/

namespace Sys2Proof.Machine

/-- The official meaning of an instruction is `runOp` of its mnemonic and operand. -/
theorem exec_eq_runOp (i : Instr) (s : State) : exec i s = (runOp (opOf i) s).outcome := by
  cases i <;> rfl

/-- An instruction completes exactly where its mnemonic's rule does. -/
theorem exec_eq_next {i : Instr} {s t : State} : exec i s = .next t ↔ runOp (opOf i) s = .ok () t := by
  rw [exec_eq_runOp, Res.outcome_eq_next]
  exact ⟨fun ⟨_, h⟩ => h, fun h => ⟨(), h⟩⟩

/-- No instruction is refused. -/
theorem exec_ne_refused (i : Instr) (s : State) (e : Refusal) : exec i s ≠ .refused e := by
  rw [exec_eq_runOp]
  exact Res.outcome_ne_refused _ e

/-- An illegal opcode byte stops on every path with its own fault (30_encoding R92). -/
theorem runOp_illegal (opcode : Byte) (s : State) :
    runOp (.illegal opcode) s = .fault (.illegalOpcode opcode (s.pc - 1#16)) s := rfl

/-- A store is one bus write of its register at its effective address (40_load_store_transfer R104 to R106). -/
theorem runOp_store {op : Op} {r : Reg} {m : MemOperand} (h : storeOf op = some (r, m)) (s : State) :
    runOp op s = busWrite (effectiveAddress m s) (s.reg r) s := by
  cases op <;> cases h <;> rfl

end Sys2Proof.Machine
end

