-- ==== Sys2Proof/Laws/PerInstr.lean ====
section
/-! SUPPORT. A law of every instruction as syntax, one lemma per constructor: its length is 1 to 3 bytes and is decided by
its opcode byte alone (30_encoding R70, R94), and its base cost is 2 to 7 cycles (R89), none for an illegal byte. -/

namespace Sys2Proof.Laws

/-- The length of a well-formed instruction is what its opcode byte says, at most 3, and its base cost is in range. -/
def Shape.Statement (i : Instr) : Prop :=
  i.wf = true →
    operandCount (opcodeOf i) + 1 = (encode i).length ∧ instrLength i = (encode i).length ∧ (encode i).length ≤ 3
      ∧ (baseCycles i = 0 ∨ (2 ≤ baseCycles i ∧ baseCycles i ≤ 7))

/-- An illegal byte has no operand bytes (R92). -/
theorem operandCount_illegal (b : Byte) (h : isIllegalOpcode b = true) : operandCount b = 0 := by
  revert b; decide +kernel

theorem shape_of {i : Instr} {n c : Nat} (h1 : operandCount (opcodeOf i) = n) (h2 : (encode i).length = n + 1)
    (h3 : instrLength i = n + 1) (h4 : n ≤ 2) (h5 : baseCycles i = c) (h6 : 2 ≤ c ∧ c ≤ 7) : Shape.Statement i := by
  intro _
  rw [h1, h2, h3, h5]
  exact ⟨rfl, rfl, by omega, .inr h6⟩

theorem Shape.ldaImm (v : Byte) : Shape.Statement (.ldaImm v) :=
  shape_of (n := 1) (c := 2) rfl rfl rfl (by decide) rfl (by decide)
theorem Shape.ldaZp (a : Byte) : Shape.Statement (.ldaZp a) :=
  shape_of (n := 1) (c := 3) rfl rfl rfl (by decide) rfl (by decide)
theorem Shape.ldaZpx (a : Byte) : Shape.Statement (.ldaZpx a) :=
  shape_of (n := 1) (c := 4) rfl rfl rfl (by decide) rfl (by decide)
theorem Shape.ldaAbs (w : Addr) : Shape.Statement (.ldaAbs w) :=
  shape_of (n := 2) (c := 4) rfl rfl rfl (by decide) rfl (by decide)
theorem Shape.ldaAbx (w : Addr) : Shape.Statement (.ldaAbx w) :=
  shape_of (n := 2) (c := 4) rfl rfl rfl (by decide) rfl (by decide)
theorem Shape.ldaAby (w : Addr) : Shape.Statement (.ldaAby w) :=
  shape_of (n := 2) (c := 4) rfl rfl rfl (by decide) rfl (by decide)
theorem Shape.ldaIzx (a : Byte) : Shape.Statement (.ldaIzx a) :=
  shape_of (n := 1) (c := 6) rfl rfl rfl (by decide) rfl (by decide)
theorem Shape.ldaIzy (a : Byte) : Shape.Statement (.ldaIzy a) :=
  shape_of (n := 1) (c := 5) rfl rfl rfl (by decide) rfl (by decide)
theorem Shape.ldxImm (v : Byte) : Shape.Statement (.ldxImm v) :=
  shape_of (n := 1) (c := 2) rfl rfl rfl (by decide) rfl (by decide)
theorem Shape.ldxZp (a : Byte) : Shape.Statement (.ldxZp a) :=
  shape_of (n := 1) (c := 3) rfl rfl rfl (by decide) rfl (by decide)
theorem Shape.ldxZpy (a : Byte) : Shape.Statement (.ldxZpy a) :=
  shape_of (n := 1) (c := 4) rfl rfl rfl (by decide) rfl (by decide)
theorem Shape.ldxAbs (w : Addr) : Shape.Statement (.ldxAbs w) :=
  shape_of (n := 2) (c := 4) rfl rfl rfl (by decide) rfl (by decide)
theorem Shape.ldxAby (w : Addr) : Shape.Statement (.ldxAby w) :=
  shape_of (n := 2) (c := 4) rfl rfl rfl (by decide) rfl (by decide)
theorem Shape.ldyImm (v : Byte) : Shape.Statement (.ldyImm v) :=
  shape_of (n := 1) (c := 2) rfl rfl rfl (by decide) rfl (by decide)
theorem Shape.ldyZp (a : Byte) : Shape.Statement (.ldyZp a) :=
  shape_of (n := 1) (c := 3) rfl rfl rfl (by decide) rfl (by decide)
theorem Shape.ldyZpx (a : Byte) : Shape.Statement (.ldyZpx a) :=
  shape_of (n := 1) (c := 4) rfl rfl rfl (by decide) rfl (by decide)
theorem Shape.ldyAbs (w : Addr) : Shape.Statement (.ldyAbs w) :=
  shape_of (n := 2) (c := 4) rfl rfl rfl (by decide) rfl (by decide)
theorem Shape.ldyAbx (w : Addr) : Shape.Statement (.ldyAbx w) :=
  shape_of (n := 2) (c := 4) rfl rfl rfl (by decide) rfl (by decide)
theorem Shape.staZp (a : Byte) : Shape.Statement (.staZp a) :=
  shape_of (n := 1) (c := 3) rfl rfl rfl (by decide) rfl (by decide)
theorem Shape.staZpx (a : Byte) : Shape.Statement (.staZpx a) :=
  shape_of (n := 1) (c := 4) rfl rfl rfl (by decide) rfl (by decide)
theorem Shape.staAbs (w : Addr) : Shape.Statement (.staAbs w) :=
  shape_of (n := 2) (c := 4) rfl rfl rfl (by decide) rfl (by decide)
theorem Shape.staAbx (w : Addr) : Shape.Statement (.staAbx w) :=
  shape_of (n := 2) (c := 5) rfl rfl rfl (by decide) rfl (by decide)
theorem Shape.staAby (w : Addr) : Shape.Statement (.staAby w) :=
  shape_of (n := 2) (c := 5) rfl rfl rfl (by decide) rfl (by decide)
theorem Shape.staIzx (a : Byte) : Shape.Statement (.staIzx a) :=
  shape_of (n := 1) (c := 6) rfl rfl rfl (by decide) rfl (by decide)
theorem Shape.staIzy (a : Byte) : Shape.Statement (.staIzy a) :=
  shape_of (n := 1) (c := 6) rfl rfl rfl (by decide) rfl (by decide)
theorem Shape.stxZp (a : Byte) : Shape.Statement (.stxZp a) :=
  shape_of (n := 1) (c := 3) rfl rfl rfl (by decide) rfl (by decide)
theorem Shape.stxZpy (a : Byte) : Shape.Statement (.stxZpy a) :=
  shape_of (n := 1) (c := 4) rfl rfl rfl (by decide) rfl (by decide)
theorem Shape.stxAbs (w : Addr) : Shape.Statement (.stxAbs w) :=
  shape_of (n := 2) (c := 4) rfl rfl rfl (by decide) rfl (by decide)
theorem Shape.styZp (a : Byte) : Shape.Statement (.styZp a) :=
  shape_of (n := 1) (c := 3) rfl rfl rfl (by decide) rfl (by decide)
theorem Shape.styZpx (a : Byte) : Shape.Statement (.styZpx a) :=
  shape_of (n := 1) (c := 4) rfl rfl rfl (by decide) rfl (by decide)
theorem Shape.styAbs (w : Addr) : Shape.Statement (.styAbs w) :=
  shape_of (n := 2) (c := 4) rfl rfl rfl (by decide) rfl (by decide)
theorem Shape.tax : Shape.Statement (.tax) :=
  shape_of (n := 0) (c := 2) rfl rfl rfl (by decide) rfl (by decide)
theorem Shape.tay : Shape.Statement (.tay) :=
  shape_of (n := 0) (c := 2) rfl rfl rfl (by decide) rfl (by decide)
theorem Shape.txa : Shape.Statement (.txa) :=
  shape_of (n := 0) (c := 2) rfl rfl rfl (by decide) rfl (by decide)
theorem Shape.tya : Shape.Statement (.tya) :=
  shape_of (n := 0) (c := 2) rfl rfl rfl (by decide) rfl (by decide)
theorem Shape.tsx : Shape.Statement (.tsx) :=
  shape_of (n := 0) (c := 2) rfl rfl rfl (by decide) rfl (by decide)
theorem Shape.txs : Shape.Statement (.txs) :=
  shape_of (n := 0) (c := 2) rfl rfl rfl (by decide) rfl (by decide)
theorem Shape.adcImm (v : Byte) : Shape.Statement (.adcImm v) :=
  shape_of (n := 1) (c := 2) rfl rfl rfl (by decide) rfl (by decide)
theorem Shape.adcZp (a : Byte) : Shape.Statement (.adcZp a) :=
  shape_of (n := 1) (c := 3) rfl rfl rfl (by decide) rfl (by decide)
theorem Shape.adcZpx (a : Byte) : Shape.Statement (.adcZpx a) :=
  shape_of (n := 1) (c := 4) rfl rfl rfl (by decide) rfl (by decide)
theorem Shape.adcAbs (w : Addr) : Shape.Statement (.adcAbs w) :=
  shape_of (n := 2) (c := 4) rfl rfl rfl (by decide) rfl (by decide)
theorem Shape.adcAbx (w : Addr) : Shape.Statement (.adcAbx w) :=
  shape_of (n := 2) (c := 4) rfl rfl rfl (by decide) rfl (by decide)
theorem Shape.adcAby (w : Addr) : Shape.Statement (.adcAby w) :=
  shape_of (n := 2) (c := 4) rfl rfl rfl (by decide) rfl (by decide)
theorem Shape.adcIzx (a : Byte) : Shape.Statement (.adcIzx a) :=
  shape_of (n := 1) (c := 6) rfl rfl rfl (by decide) rfl (by decide)
theorem Shape.adcIzy (a : Byte) : Shape.Statement (.adcIzy a) :=
  shape_of (n := 1) (c := 5) rfl rfl rfl (by decide) rfl (by decide)
theorem Shape.sbcImm (v : Byte) : Shape.Statement (.sbcImm v) :=
  shape_of (n := 1) (c := 2) rfl rfl rfl (by decide) rfl (by decide)
theorem Shape.sbcZp (a : Byte) : Shape.Statement (.sbcZp a) :=
  shape_of (n := 1) (c := 3) rfl rfl rfl (by decide) rfl (by decide)
theorem Shape.sbcZpx (a : Byte) : Shape.Statement (.sbcZpx a) :=
  shape_of (n := 1) (c := 4) rfl rfl rfl (by decide) rfl (by decide)
theorem Shape.sbcAbs (w : Addr) : Shape.Statement (.sbcAbs w) :=
  shape_of (n := 2) (c := 4) rfl rfl rfl (by decide) rfl (by decide)
theorem Shape.sbcAbx (w : Addr) : Shape.Statement (.sbcAbx w) :=
  shape_of (n := 2) (c := 4) rfl rfl rfl (by decide) rfl (by decide)
theorem Shape.sbcAby (w : Addr) : Shape.Statement (.sbcAby w) :=
  shape_of (n := 2) (c := 4) rfl rfl rfl (by decide) rfl (by decide)
theorem Shape.sbcIzx (a : Byte) : Shape.Statement (.sbcIzx a) :=
  shape_of (n := 1) (c := 6) rfl rfl rfl (by decide) rfl (by decide)
theorem Shape.sbcIzy (a : Byte) : Shape.Statement (.sbcIzy a) :=
  shape_of (n := 1) (c := 5) rfl rfl rfl (by decide) rfl (by decide)
theorem Shape.andImm (v : Byte) : Shape.Statement (.andImm v) :=
  shape_of (n := 1) (c := 2) rfl rfl rfl (by decide) rfl (by decide)
theorem Shape.andZp (a : Byte) : Shape.Statement (.andZp a) :=
  shape_of (n := 1) (c := 3) rfl rfl rfl (by decide) rfl (by decide)
theorem Shape.andZpx (a : Byte) : Shape.Statement (.andZpx a) :=
  shape_of (n := 1) (c := 4) rfl rfl rfl (by decide) rfl (by decide)
theorem Shape.andAbs (w : Addr) : Shape.Statement (.andAbs w) :=
  shape_of (n := 2) (c := 4) rfl rfl rfl (by decide) rfl (by decide)
theorem Shape.andAbx (w : Addr) : Shape.Statement (.andAbx w) :=
  shape_of (n := 2) (c := 4) rfl rfl rfl (by decide) rfl (by decide)
theorem Shape.andAby (w : Addr) : Shape.Statement (.andAby w) :=
  shape_of (n := 2) (c := 4) rfl rfl rfl (by decide) rfl (by decide)
theorem Shape.andIzx (a : Byte) : Shape.Statement (.andIzx a) :=
  shape_of (n := 1) (c := 6) rfl rfl rfl (by decide) rfl (by decide)
theorem Shape.andIzy (a : Byte) : Shape.Statement (.andIzy a) :=
  shape_of (n := 1) (c := 5) rfl rfl rfl (by decide) rfl (by decide)
theorem Shape.oraImm (v : Byte) : Shape.Statement (.oraImm v) :=
  shape_of (n := 1) (c := 2) rfl rfl rfl (by decide) rfl (by decide)
theorem Shape.oraZp (a : Byte) : Shape.Statement (.oraZp a) :=
  shape_of (n := 1) (c := 3) rfl rfl rfl (by decide) rfl (by decide)
theorem Shape.oraZpx (a : Byte) : Shape.Statement (.oraZpx a) :=
  shape_of (n := 1) (c := 4) rfl rfl rfl (by decide) rfl (by decide)
theorem Shape.oraAbs (w : Addr) : Shape.Statement (.oraAbs w) :=
  shape_of (n := 2) (c := 4) rfl rfl rfl (by decide) rfl (by decide)
theorem Shape.oraAbx (w : Addr) : Shape.Statement (.oraAbx w) :=
  shape_of (n := 2) (c := 4) rfl rfl rfl (by decide) rfl (by decide)
theorem Shape.oraAby (w : Addr) : Shape.Statement (.oraAby w) :=
  shape_of (n := 2) (c := 4) rfl rfl rfl (by decide) rfl (by decide)
theorem Shape.oraIzx (a : Byte) : Shape.Statement (.oraIzx a) :=
  shape_of (n := 1) (c := 6) rfl rfl rfl (by decide) rfl (by decide)
theorem Shape.oraIzy (a : Byte) : Shape.Statement (.oraIzy a) :=
  shape_of (n := 1) (c := 5) rfl rfl rfl (by decide) rfl (by decide)
theorem Shape.eorImm (v : Byte) : Shape.Statement (.eorImm v) :=
  shape_of (n := 1) (c := 2) rfl rfl rfl (by decide) rfl (by decide)
theorem Shape.eorZp (a : Byte) : Shape.Statement (.eorZp a) :=
  shape_of (n := 1) (c := 3) rfl rfl rfl (by decide) rfl (by decide)
theorem Shape.eorZpx (a : Byte) : Shape.Statement (.eorZpx a) :=
  shape_of (n := 1) (c := 4) rfl rfl rfl (by decide) rfl (by decide)
theorem Shape.eorAbs (w : Addr) : Shape.Statement (.eorAbs w) :=
  shape_of (n := 2) (c := 4) rfl rfl rfl (by decide) rfl (by decide)
theorem Shape.eorAbx (w : Addr) : Shape.Statement (.eorAbx w) :=
  shape_of (n := 2) (c := 4) rfl rfl rfl (by decide) rfl (by decide)
theorem Shape.eorAby (w : Addr) : Shape.Statement (.eorAby w) :=
  shape_of (n := 2) (c := 4) rfl rfl rfl (by decide) rfl (by decide)
theorem Shape.eorIzx (a : Byte) : Shape.Statement (.eorIzx a) :=
  shape_of (n := 1) (c := 6) rfl rfl rfl (by decide) rfl (by decide)
theorem Shape.eorIzy (a : Byte) : Shape.Statement (.eorIzy a) :=
  shape_of (n := 1) (c := 5) rfl rfl rfl (by decide) rfl (by decide)
theorem Shape.cmpImm (v : Byte) : Shape.Statement (.cmpImm v) :=
  shape_of (n := 1) (c := 2) rfl rfl rfl (by decide) rfl (by decide)
theorem Shape.cmpZp (a : Byte) : Shape.Statement (.cmpZp a) :=
  shape_of (n := 1) (c := 3) rfl rfl rfl (by decide) rfl (by decide)
theorem Shape.cmpZpx (a : Byte) : Shape.Statement (.cmpZpx a) :=
  shape_of (n := 1) (c := 4) rfl rfl rfl (by decide) rfl (by decide)
theorem Shape.cmpAbs (w : Addr) : Shape.Statement (.cmpAbs w) :=
  shape_of (n := 2) (c := 4) rfl rfl rfl (by decide) rfl (by decide)
theorem Shape.cmpAbx (w : Addr) : Shape.Statement (.cmpAbx w) :=
  shape_of (n := 2) (c := 4) rfl rfl rfl (by decide) rfl (by decide)
theorem Shape.cmpAby (w : Addr) : Shape.Statement (.cmpAby w) :=
  shape_of (n := 2) (c := 4) rfl rfl rfl (by decide) rfl (by decide)
theorem Shape.cmpIzx (a : Byte) : Shape.Statement (.cmpIzx a) :=
  shape_of (n := 1) (c := 6) rfl rfl rfl (by decide) rfl (by decide)
theorem Shape.cmpIzy (a : Byte) : Shape.Statement (.cmpIzy a) :=
  shape_of (n := 1) (c := 5) rfl rfl rfl (by decide) rfl (by decide)
theorem Shape.cpxImm (v : Byte) : Shape.Statement (.cpxImm v) :=
  shape_of (n := 1) (c := 2) rfl rfl rfl (by decide) rfl (by decide)
theorem Shape.cpxZp (a : Byte) : Shape.Statement (.cpxZp a) :=
  shape_of (n := 1) (c := 3) rfl rfl rfl (by decide) rfl (by decide)
theorem Shape.cpxAbs (w : Addr) : Shape.Statement (.cpxAbs w) :=
  shape_of (n := 2) (c := 4) rfl rfl rfl (by decide) rfl (by decide)
theorem Shape.cpyImm (v : Byte) : Shape.Statement (.cpyImm v) :=
  shape_of (n := 1) (c := 2) rfl rfl rfl (by decide) rfl (by decide)
theorem Shape.cpyZp (a : Byte) : Shape.Statement (.cpyZp a) :=
  shape_of (n := 1) (c := 3) rfl rfl rfl (by decide) rfl (by decide)
theorem Shape.cpyAbs (w : Addr) : Shape.Statement (.cpyAbs w) :=
  shape_of (n := 2) (c := 4) rfl rfl rfl (by decide) rfl (by decide)
theorem Shape.bitZp (a : Byte) : Shape.Statement (.bitZp a) :=
  shape_of (n := 1) (c := 3) rfl rfl rfl (by decide) rfl (by decide)
theorem Shape.bitAbs (w : Addr) : Shape.Statement (.bitAbs w) :=
  shape_of (n := 2) (c := 4) rfl rfl rfl (by decide) rfl (by decide)
theorem Shape.incZp (a : Byte) : Shape.Statement (.incZp a) :=
  shape_of (n := 1) (c := 5) rfl rfl rfl (by decide) rfl (by decide)
theorem Shape.incZpx (a : Byte) : Shape.Statement (.incZpx a) :=
  shape_of (n := 1) (c := 6) rfl rfl rfl (by decide) rfl (by decide)
theorem Shape.incAbs (w : Addr) : Shape.Statement (.incAbs w) :=
  shape_of (n := 2) (c := 6) rfl rfl rfl (by decide) rfl (by decide)
theorem Shape.incAbx (w : Addr) : Shape.Statement (.incAbx w) :=
  shape_of (n := 2) (c := 7) rfl rfl rfl (by decide) rfl (by decide)
theorem Shape.decZp (a : Byte) : Shape.Statement (.decZp a) :=
  shape_of (n := 1) (c := 5) rfl rfl rfl (by decide) rfl (by decide)
theorem Shape.decZpx (a : Byte) : Shape.Statement (.decZpx a) :=
  shape_of (n := 1) (c := 6) rfl rfl rfl (by decide) rfl (by decide)
theorem Shape.decAbs (w : Addr) : Shape.Statement (.decAbs w) :=
  shape_of (n := 2) (c := 6) rfl rfl rfl (by decide) rfl (by decide)
theorem Shape.decAbx (w : Addr) : Shape.Statement (.decAbx w) :=
  shape_of (n := 2) (c := 7) rfl rfl rfl (by decide) rfl (by decide)
theorem Shape.inx : Shape.Statement (.inx) :=
  shape_of (n := 0) (c := 2) rfl rfl rfl (by decide) rfl (by decide)
theorem Shape.iny : Shape.Statement (.iny) :=
  shape_of (n := 0) (c := 2) rfl rfl rfl (by decide) rfl (by decide)
theorem Shape.dex : Shape.Statement (.dex) :=
  shape_of (n := 0) (c := 2) rfl rfl rfl (by decide) rfl (by decide)
theorem Shape.dey : Shape.Statement (.dey) :=
  shape_of (n := 0) (c := 2) rfl rfl rfl (by decide) rfl (by decide)
theorem Shape.aslAcc : Shape.Statement (.aslAcc) :=
  shape_of (n := 0) (c := 2) rfl rfl rfl (by decide) rfl (by decide)
theorem Shape.aslZp (a : Byte) : Shape.Statement (.aslZp a) :=
  shape_of (n := 1) (c := 5) rfl rfl rfl (by decide) rfl (by decide)
theorem Shape.aslZpx (a : Byte) : Shape.Statement (.aslZpx a) :=
  shape_of (n := 1) (c := 6) rfl rfl rfl (by decide) rfl (by decide)
theorem Shape.aslAbs (w : Addr) : Shape.Statement (.aslAbs w) :=
  shape_of (n := 2) (c := 6) rfl rfl rfl (by decide) rfl (by decide)
theorem Shape.aslAbx (w : Addr) : Shape.Statement (.aslAbx w) :=
  shape_of (n := 2) (c := 7) rfl rfl rfl (by decide) rfl (by decide)
theorem Shape.lsrAcc : Shape.Statement (.lsrAcc) :=
  shape_of (n := 0) (c := 2) rfl rfl rfl (by decide) rfl (by decide)
theorem Shape.lsrZp (a : Byte) : Shape.Statement (.lsrZp a) :=
  shape_of (n := 1) (c := 5) rfl rfl rfl (by decide) rfl (by decide)
theorem Shape.lsrZpx (a : Byte) : Shape.Statement (.lsrZpx a) :=
  shape_of (n := 1) (c := 6) rfl rfl rfl (by decide) rfl (by decide)
theorem Shape.lsrAbs (w : Addr) : Shape.Statement (.lsrAbs w) :=
  shape_of (n := 2) (c := 6) rfl rfl rfl (by decide) rfl (by decide)
theorem Shape.lsrAbx (w : Addr) : Shape.Statement (.lsrAbx w) :=
  shape_of (n := 2) (c := 7) rfl rfl rfl (by decide) rfl (by decide)
theorem Shape.rolAcc : Shape.Statement (.rolAcc) :=
  shape_of (n := 0) (c := 2) rfl rfl rfl (by decide) rfl (by decide)
theorem Shape.rolZp (a : Byte) : Shape.Statement (.rolZp a) :=
  shape_of (n := 1) (c := 5) rfl rfl rfl (by decide) rfl (by decide)
theorem Shape.rolZpx (a : Byte) : Shape.Statement (.rolZpx a) :=
  shape_of (n := 1) (c := 6) rfl rfl rfl (by decide) rfl (by decide)
theorem Shape.rolAbs (w : Addr) : Shape.Statement (.rolAbs w) :=
  shape_of (n := 2) (c := 6) rfl rfl rfl (by decide) rfl (by decide)
theorem Shape.rolAbx (w : Addr) : Shape.Statement (.rolAbx w) :=
  shape_of (n := 2) (c := 7) rfl rfl rfl (by decide) rfl (by decide)
theorem Shape.rorAcc : Shape.Statement (.rorAcc) :=
  shape_of (n := 0) (c := 2) rfl rfl rfl (by decide) rfl (by decide)
theorem Shape.rorZp (a : Byte) : Shape.Statement (.rorZp a) :=
  shape_of (n := 1) (c := 5) rfl rfl rfl (by decide) rfl (by decide)
theorem Shape.rorZpx (a : Byte) : Shape.Statement (.rorZpx a) :=
  shape_of (n := 1) (c := 6) rfl rfl rfl (by decide) rfl (by decide)
theorem Shape.rorAbs (w : Addr) : Shape.Statement (.rorAbs w) :=
  shape_of (n := 2) (c := 6) rfl rfl rfl (by decide) rfl (by decide)
theorem Shape.rorAbx (w : Addr) : Shape.Statement (.rorAbx w) :=
  shape_of (n := 2) (c := 7) rfl rfl rfl (by decide) rfl (by decide)
theorem Shape.bcc (off : Byte) : Shape.Statement (.bcc off) :=
  shape_of (n := 1) (c := 2) rfl rfl rfl (by decide) rfl (by decide)
theorem Shape.bcs (off : Byte) : Shape.Statement (.bcs off) :=
  shape_of (n := 1) (c := 2) rfl rfl rfl (by decide) rfl (by decide)
theorem Shape.beq (off : Byte) : Shape.Statement (.beq off) :=
  shape_of (n := 1) (c := 2) rfl rfl rfl (by decide) rfl (by decide)
theorem Shape.bne (off : Byte) : Shape.Statement (.bne off) :=
  shape_of (n := 1) (c := 2) rfl rfl rfl (by decide) rfl (by decide)
theorem Shape.bmi (off : Byte) : Shape.Statement (.bmi off) :=
  shape_of (n := 1) (c := 2) rfl rfl rfl (by decide) rfl (by decide)
theorem Shape.bpl (off : Byte) : Shape.Statement (.bpl off) :=
  shape_of (n := 1) (c := 2) rfl rfl rfl (by decide) rfl (by decide)
theorem Shape.bvc (off : Byte) : Shape.Statement (.bvc off) :=
  shape_of (n := 1) (c := 2) rfl rfl rfl (by decide) rfl (by decide)
theorem Shape.bvs (off : Byte) : Shape.Statement (.bvs off) :=
  shape_of (n := 1) (c := 2) rfl rfl rfl (by decide) rfl (by decide)
theorem Shape.jmpAbs (w : Addr) : Shape.Statement (.jmpAbs w) :=
  shape_of (n := 2) (c := 3) rfl rfl rfl (by decide) rfl (by decide)
theorem Shape.jmpInd (w : Addr) : Shape.Statement (.jmpInd w) :=
  shape_of (n := 2) (c := 5) rfl rfl rfl (by decide) rfl (by decide)
theorem Shape.jsr (w : Addr) : Shape.Statement (.jsr w) :=
  shape_of (n := 2) (c := 6) rfl rfl rfl (by decide) rfl (by decide)
theorem Shape.rts : Shape.Statement (.rts) :=
  shape_of (n := 0) (c := 6) rfl rfl rfl (by decide) rfl (by decide)
theorem Shape.pha : Shape.Statement (.pha) :=
  shape_of (n := 0) (c := 3) rfl rfl rfl (by decide) rfl (by decide)
theorem Shape.pla : Shape.Statement (.pla) :=
  shape_of (n := 0) (c := 4) rfl rfl rfl (by decide) rfl (by decide)
theorem Shape.php : Shape.Statement (.php) :=
  shape_of (n := 0) (c := 3) rfl rfl rfl (by decide) rfl (by decide)
theorem Shape.plp : Shape.Statement (.plp) :=
  shape_of (n := 0) (c := 4) rfl rfl rfl (by decide) rfl (by decide)
theorem Shape.clc : Shape.Statement (.clc) :=
  shape_of (n := 0) (c := 2) rfl rfl rfl (by decide) rfl (by decide)
theorem Shape.sec : Shape.Statement (.sec) :=
  shape_of (n := 0) (c := 2) rfl rfl rfl (by decide) rfl (by decide)
theorem Shape.cli : Shape.Statement (.cli) :=
  shape_of (n := 0) (c := 2) rfl rfl rfl (by decide) rfl (by decide)
theorem Shape.sei : Shape.Statement (.sei) :=
  shape_of (n := 0) (c := 2) rfl rfl rfl (by decide) rfl (by decide)
theorem Shape.cld : Shape.Statement (.cld) :=
  shape_of (n := 0) (c := 2) rfl rfl rfl (by decide) rfl (by decide)
theorem Shape.sed : Shape.Statement (.sed) :=
  shape_of (n := 0) (c := 2) rfl rfl rfl (by decide) rfl (by decide)
theorem Shape.clv : Shape.Statement (.clv) :=
  shape_of (n := 0) (c := 2) rfl rfl rfl (by decide) rfl (by decide)
theorem Shape.nop : Shape.Statement (.nop) :=
  shape_of (n := 0) (c := 2) rfl rfl rfl (by decide) rfl (by decide)
theorem Shape.brk : Shape.Statement (.brk) :=
  shape_of (n := 0) (c := 7) rfl rfl rfl (by decide) rfl (by decide)
theorem Shape.rti : Shape.Statement (.rti) :=
  shape_of (n := 0) (c := 6) rfl rfl rfl (by decide) rfl (by decide)

theorem Shape.illegal (opcode : Byte) : Shape.Statement (.illegal opcode) := by
  intro h
  have h0 : operandCount (opcodeOf (.illegal opcode)) = 0 := operandCount_illegal opcode h
  exact ⟨by rw [h0]; rfl, rfl, Nat.le_of_ble_eq_true rfl, .inl rfl⟩

end Sys2Proof.Laws
end

