-- ==== Sys2Proof/Laws/Step.lean ====
section
/-! SUPPORT. What a step can do, said once (00_scope R6, 30_encoding R72), what fetching can do, and that every bus access
keeps the memories canonical and the PPU in range. -/

namespace Sys2Proof.Machine

/-! ## A step -/

/-- A completed fetch of one byte is a completed bus read at PC, then PC + 1 (R73). -/
theorem fetch8_ok {s t : State} {v : Byte} (h : fetch8 s = .ok v t) :
    ∃ u, busRead s.pc s = .ok v u ∧ t = { s with ppu := u.ppu, pc := s.pc + 1#16 } := by
  obtain ⟨b, u, h1, h2⟩ := Res.bind_eq_ok.1 h
  cases h2
  refine ⟨u, h1, ?_⟩
  rw [busRead_ok_ppu h1]
  rfl

/-- What every bus read, every write of PC and every added cycle keeps, fetching an instruction keeps. -/
theorem fetchInstr_keeps {I : State → Prop} (hread : ∀ a v s t, busRead a s = .ok v t → I s → I t)
    (hpc : ∀ (s : State) w, I s → I (s.setPC w)) (hcycles : ∀ (s : State) n, I s → I (s.addCycles n))
    {s t : State} {i : Instr} (h : fetchInstr s = .ok i t) (hs : I s) : I t := by
  have one : ∀ {s t v}, fetch8 s = .ok v t → I s → I t := fun h hs => by
    obtain ⟨b, u, g1, g2⟩ := Res.bind_eq_ok.1 h
    cases g2
    exact hpc _ _ (hread _ _ _ _ g1 hs)
  have many : ∀ n {s t v}, fetchBytes n s = .ok v t → I s → I t := by
    intro n
    induction n with
    | zero => intro s t v h hs; cases h; exact hs
    | succ n ih =>
      intro s t v h hs
      obtain ⟨_, _, g1, g2⟩ := Res.bind_eq_ok.1 h
      obtain ⟨_, _, g3, g4⟩ := Res.bind_eq_ok.1 g2
      cases g4
      exact ih g3 (one g1 hs)
  obtain ⟨_, _, g1, g2⟩ := Res.bind_eq_ok.1 h
  obtain ⟨_, _, g3, g4⟩ := Res.bind_eq_ok.1 g2
  cases g4
  exact many _ g3 (hcycles _ _ (one g1 hs))

/-- What a completed step is (R6): no fault was recorded; NMI service where one was pending, else one instruction fetched,
run, and closed by the PPU's advance. -/
theorem step_next {s t : State} (h : step s = .next t) : s.fault = none ∧
    (s.ppu.nmiPending = true ∧ nmiService s = .ok () t
    ∨ s.ppu.nmiPending = false ∧ ∃ i u v, fetchInstr s = .ok i u ∧ runOp (opOf i) u = .ok () v
      ∧ t = catchUp s.cycles v) := by
  cases hf : s.fault with
  | some f => simp [step, hf] at h
  | none =>
    refine ⟨rfl, ?_⟩
    cases hn : s.ppu.nmiPending with
    | true =>
      simp only [step, hf, hn, if_true] at h
      obtain ⟨_, h⟩ := Res.outcome_eq_next.1 h
      exact .inl ⟨rfl, h⟩
    | false =>
      refine .inr ⟨rfl, ?_⟩
      simp only [step, hf, hn, Bool.false_eq_true, if_false, instructionStep] at h
      cases hfe : fetchInstr s with
      | fault f u => simp [hfe] at h
      | ok i u =>
        rw [hfe] at h
        cases he : exec i u with
        | next v =>
          simp only [he, closeStep] at h
          cases h
          exact ⟨i, u, v, rfl, exec_eq_next.1 he, rfl⟩
        | fault f => simp [he, closeStep] at h
        | refused e => simp [he, closeStep] at h

/-! ## The invariant over the operations -/

/-- One dot keeps the PPU's ranges and canonical forms (R230 to R232). -/
theorem ppuDot_wf (p : Ppu) (h : p.wf = true) : (ppuDot p).wf = true := by
  rw [Ppu.wf_iff] at *
  obtain ⟨hd, hl, hs, hm⟩ := h
  rcases ppuDot_cases p with ⟨h1, e⟩ | ⟨h1, h2, e⟩ | ⟨h1, h2, e⟩ | ⟨h1, h2, h3, e⟩ <;> rw [e]
  · exact ⟨by simp only; omega, hl, hs, hm⟩
  · refine ⟨show 0 < 341 by decide, ?_, status_low_setBit _ _ _ (.inl rfl) (status_low_setBit _ _ _ (.inr rfl) hs), hm⟩
    simp only [vblankStart, vblankLine, linesPerFrame] at *
    omega
  · exact ⟨show 0 < 341 by decide, show 0 < 262 by decide,
      status_low_setBit _ _ _ (.inl rfl) (status_low_setBit _ _ _ (.inr rfl) hs), hm⟩
  · refine ⟨show 0 < 341 by decide, ?_, hs, hm⟩
    simp only [linesPerFrame] at *
    omega

/-- Any number of dots keeps the PPU's ranges and canonical forms. -/
theorem ppuAdvance_wf (n : Nat) (p : Ppu) (h : p.wf = true) : (ppuAdvance n p).wf = true :=
  ppuAdvance_keeps (I := fun p => p.wf = true) ppuDot_wf n h

theorem State.wf_iff (s : State) : s.wf = true ↔ s.ram.wf ramSize = true ∧ s.ppu.wf = true ∧ s.cart.wf = true := by
  simp [State.wf, and_assoc]

/-- A bus read keeps the invariant. -/
theorem busRead_wf {a : Addr} {v : Byte} {s t : State} (h : busRead a s = .ok v t) (hw : s.wf = true) : t.wf = true := by
  rw [State.wf_iff] at *
  rcases busRead_ok h with rfl | ⟨-, -, -, -, rfl⟩ | ⟨-, -, -, -, rfl⟩
  · exact hw
  · refine ⟨hw.1, ?_, hw.2.2⟩
    have := hw.2.1
    simp only [Ppu.wf_iff] at *
    exact ⟨this.1, this.2.1, status_low_setBit _ _ _ (.inr rfl) this.2.2.1, this.2.2.2⟩
  · refine ⟨hw.1, ?_, hw.2.2⟩
    have := hw.2.1
    simp only [Ppu.wf_iff] at *
    simp only [afterDataRead]
    split <;> exact this

/-- The OAM-DMA copy keeps the invariant. -/
theorem oamCopy_wf {base : Addr} {is : List Nat} {s t : State} {u : Unit} (h : oamCopy base is s = .ok u t)
    (hw : s.wf = true) : t.wf = true := by
  induction is generalizing s with
  | nil => cases h; exact hw
  | cons i is ih =>
    obtain ⟨b, s1, h1, h2⟩ := Res.bind_eq_ok.1 h
    refine ih h2 ?_
    have := busRead_wf h1 hw
    rw [State.wf_iff] at *
    refine ⟨this.1, ?_, this.2.2⟩
    have := this.2.1
    simp only [Ppu.wf_iff] at *
    exact ⟨this.1, this.2.1, this.2.2.1, this.2.2.2.1, this.2.2.2.2.1, Memory.write_wf this.2.2.2.2.2 (BitVec.isLt _) _⟩

/-- A bus write keeps the invariant. -/
theorem busWrite_wf {a : Addr} {v : Byte} {s t : State} {u : Unit} (h : busWrite a v s = .ok u t) (hw : s.wf = true) :
    t.wf = true := by
  rcases busWrite_ok h with ⟨h1, rfl⟩ | ⟨h1, h2, h3⟩ | ⟨rfl, h3⟩ | ⟨h1, h2, h3, h4, rfl⟩
  · rw [State.wf_iff] at *
    exact ⟨Memory.write_wf hw.1 (ramIndex_lt _) _, hw.2⟩
  · rw [State.wf_iff] at *
    obtain ⟨hr, hp, hc⟩ := hw
    rw [Ppu.wf_iff] at hp
    obtain ⟨b1, b2, b3, b4, b5, b6⟩ := hp
    rcases ppuPortWrite_ok h3 with
      ⟨-, rfl⟩ | ⟨-, rfl⟩ | ⟨-, rfl⟩ | ⟨-, rfl⟩ | ⟨-, rfl⟩ | ⟨-, rfl⟩ | ⟨-, -, rfl⟩ <;>
      refine ⟨hr, ?_, hc⟩ <;> rw [Ppu.wf_iff]
    · exact ⟨b1, b2, b3, b4, b5, b6⟩
    · exact ⟨b1, b2, b3, b4, b5, b6⟩
    · exact ⟨b1, b2, b3, b4, b5, b6⟩
    · exact ⟨b1, b2, b3, b4, b5, Memory.write_wf b6 (BitVec.isLt _) _⟩
    · simp only [writeScroll]; split <;> exact ⟨b1, b2, b3, b4, b5, b6⟩
    · simp only [writeVramAddr]; split <;> exact ⟨b1, b2, b3, b4, b5, b6⟩
    · simp only [writeVramData]
      split
      · exact ⟨b1, b2, b3, Memory.write_wf b4 (ntIndex_lt _ _) _, b5, b6⟩
      · exact ⟨b1, b2, b3, b4, Memory.write_wf b5 (palIndex_lt _) _, b6⟩
  · obtain ⟨b, s1, h1, h2⟩ := Res.bind_eq_ok.1 h3
    cases h2
    exact oamCopy_wf (t := s1) h1 hw
  · exact hw

end Sys2Proof.Machine
end

