-- ==== Sys2Proof/Tests/Slice0.lean ====
section
/-! SUPPORT. Tests of one step or one operation, with expected results from the spec's own tables (30_encoding R90, R92) and
its test vectors (95_test_vectors, cited as V<n>), and for every obligation with hypotheses a state and operands that
meet them, at the boundary values of its clauses (test_meets_<obligation>). -/

namespace Sys2Proof.Tests

open Sys2Proof Sys2Proof.Machine

/-! ## WellFormed -/

/-- The one check of Instr.wf: a byte that has a row is no illegal opcode. -/
theorem test_wf_refuses_illegal_of_a_mapped_byte : (Instr.illegal 0xEA#8).wf = false := by decide

theorem test_wf_accepts : (Instr.illegal 0x02#8).wf = true ∧ (Instr.ldaImm 0xFF#8).wf = true := by decide

/-- 105 bytes have no descriptor, each listed once (R92). -/
theorem test_illegal_count : illegalOpcodes.length = 105 ∧ illegalOpcodes.Nodup := by decide

/-! ## The opcode map, row by row of R90: bytes, instruction, base cycles -/

/-- One filled cell of R90: the bytes decode to the instruction, which encodes to them and has the cell's cycles. -/
abbrev mapEntry (bytes : List Byte) (i : Instr) (cycles : Nat) : Prop :=
  decode bytes = .ok i [] ∧ encode i = bytes ∧ baseCycles i = cycles

theorem test_map_row_0 :
    mapEntry [0x00#8] (.brk) 7
    ∧ mapEntry [0x01#8, 0x34#8] (.oraIzx 0x34#8) 6
    ∧ mapEntry [0x05#8, 0x34#8] (.oraZp 0x34#8) 3
    ∧ mapEntry [0x06#8, 0x34#8] (.aslZp 0x34#8) 5
    ∧ mapEntry [0x08#8] (.php) 3
    ∧ mapEntry [0x09#8, 0x34#8] (.oraImm 0x34#8) 2
    ∧ mapEntry [0x0A#8] (.aslAcc) 2
    ∧ mapEntry [0x0D#8, 0x34#8, 0x92#8] (.oraAbs 0x9234#16) 4
    ∧ mapEntry [0x0E#8, 0x34#8, 0x92#8] (.aslAbs 0x9234#16) 6 := by decide

theorem test_map_row_1 :
    mapEntry [0x10#8, 0x34#8] (.bpl 0x34#8) 2
    ∧ mapEntry [0x11#8, 0x34#8] (.oraIzy 0x34#8) 5
    ∧ mapEntry [0x15#8, 0x34#8] (.oraZpx 0x34#8) 4
    ∧ mapEntry [0x16#8, 0x34#8] (.aslZpx 0x34#8) 6
    ∧ mapEntry [0x18#8] (.clc) 2
    ∧ mapEntry [0x19#8, 0x34#8, 0x92#8] (.oraAby 0x9234#16) 4
    ∧ mapEntry [0x1D#8, 0x34#8, 0x92#8] (.oraAbx 0x9234#16) 4
    ∧ mapEntry [0x1E#8, 0x34#8, 0x92#8] (.aslAbx 0x9234#16) 7 := by decide

theorem test_map_row_2 :
    mapEntry [0x20#8, 0x34#8, 0x92#8] (.jsr 0x9234#16) 6
    ∧ mapEntry [0x21#8, 0x34#8] (.andIzx 0x34#8) 6
    ∧ mapEntry [0x24#8, 0x34#8] (.bitZp 0x34#8) 3
    ∧ mapEntry [0x25#8, 0x34#8] (.andZp 0x34#8) 3
    ∧ mapEntry [0x26#8, 0x34#8] (.rolZp 0x34#8) 5
    ∧ mapEntry [0x28#8] (.plp) 4
    ∧ mapEntry [0x29#8, 0x34#8] (.andImm 0x34#8) 2
    ∧ mapEntry [0x2A#8] (.rolAcc) 2
    ∧ mapEntry [0x2C#8, 0x34#8, 0x92#8] (.bitAbs 0x9234#16) 4
    ∧ mapEntry [0x2D#8, 0x34#8, 0x92#8] (.andAbs 0x9234#16) 4
    ∧ mapEntry [0x2E#8, 0x34#8, 0x92#8] (.rolAbs 0x9234#16) 6 := by decide

theorem test_map_row_3 :
    mapEntry [0x30#8, 0x34#8] (.bmi 0x34#8) 2
    ∧ mapEntry [0x31#8, 0x34#8] (.andIzy 0x34#8) 5
    ∧ mapEntry [0x35#8, 0x34#8] (.andZpx 0x34#8) 4
    ∧ mapEntry [0x36#8, 0x34#8] (.rolZpx 0x34#8) 6
    ∧ mapEntry [0x38#8] (.sec) 2
    ∧ mapEntry [0x39#8, 0x34#8, 0x92#8] (.andAby 0x9234#16) 4
    ∧ mapEntry [0x3D#8, 0x34#8, 0x92#8] (.andAbx 0x9234#16) 4
    ∧ mapEntry [0x3E#8, 0x34#8, 0x92#8] (.rolAbx 0x9234#16) 7 := by decide

theorem test_map_row_4 :
    mapEntry [0x40#8] (.rti) 6
    ∧ mapEntry [0x41#8, 0x34#8] (.eorIzx 0x34#8) 6
    ∧ mapEntry [0x45#8, 0x34#8] (.eorZp 0x34#8) 3
    ∧ mapEntry [0x46#8, 0x34#8] (.lsrZp 0x34#8) 5
    ∧ mapEntry [0x48#8] (.pha) 3
    ∧ mapEntry [0x49#8, 0x34#8] (.eorImm 0x34#8) 2
    ∧ mapEntry [0x4A#8] (.lsrAcc) 2
    ∧ mapEntry [0x4C#8, 0x34#8, 0x92#8] (.jmpAbs 0x9234#16) 3
    ∧ mapEntry [0x4D#8, 0x34#8, 0x92#8] (.eorAbs 0x9234#16) 4
    ∧ mapEntry [0x4E#8, 0x34#8, 0x92#8] (.lsrAbs 0x9234#16) 6 := by decide

theorem test_map_row_5 :
    mapEntry [0x50#8, 0x34#8] (.bvc 0x34#8) 2
    ∧ mapEntry [0x51#8, 0x34#8] (.eorIzy 0x34#8) 5
    ∧ mapEntry [0x55#8, 0x34#8] (.eorZpx 0x34#8) 4
    ∧ mapEntry [0x56#8, 0x34#8] (.lsrZpx 0x34#8) 6
    ∧ mapEntry [0x58#8] (.cli) 2
    ∧ mapEntry [0x59#8, 0x34#8, 0x92#8] (.eorAby 0x9234#16) 4
    ∧ mapEntry [0x5D#8, 0x34#8, 0x92#8] (.eorAbx 0x9234#16) 4
    ∧ mapEntry [0x5E#8, 0x34#8, 0x92#8] (.lsrAbx 0x9234#16) 7 := by decide

theorem test_map_row_6 :
    mapEntry [0x60#8] (.rts) 6
    ∧ mapEntry [0x61#8, 0x34#8] (.adcIzx 0x34#8) 6
    ∧ mapEntry [0x65#8, 0x34#8] (.adcZp 0x34#8) 3
    ∧ mapEntry [0x66#8, 0x34#8] (.rorZp 0x34#8) 5
    ∧ mapEntry [0x68#8] (.pla) 4
    ∧ mapEntry [0x69#8, 0x34#8] (.adcImm 0x34#8) 2
    ∧ mapEntry [0x6A#8] (.rorAcc) 2
    ∧ mapEntry [0x6C#8, 0x34#8, 0x92#8] (.jmpInd 0x9234#16) 5
    ∧ mapEntry [0x6D#8, 0x34#8, 0x92#8] (.adcAbs 0x9234#16) 4
    ∧ mapEntry [0x6E#8, 0x34#8, 0x92#8] (.rorAbs 0x9234#16) 6 := by decide

theorem test_map_row_7 :
    mapEntry [0x70#8, 0x34#8] (.bvs 0x34#8) 2
    ∧ mapEntry [0x71#8, 0x34#8] (.adcIzy 0x34#8) 5
    ∧ mapEntry [0x75#8, 0x34#8] (.adcZpx 0x34#8) 4
    ∧ mapEntry [0x76#8, 0x34#8] (.rorZpx 0x34#8) 6
    ∧ mapEntry [0x78#8] (.sei) 2
    ∧ mapEntry [0x79#8, 0x34#8, 0x92#8] (.adcAby 0x9234#16) 4
    ∧ mapEntry [0x7D#8, 0x34#8, 0x92#8] (.adcAbx 0x9234#16) 4
    ∧ mapEntry [0x7E#8, 0x34#8, 0x92#8] (.rorAbx 0x9234#16) 7 := by decide

theorem test_map_row_8 :
    mapEntry [0x81#8, 0x34#8] (.staIzx 0x34#8) 6
    ∧ mapEntry [0x84#8, 0x34#8] (.styZp 0x34#8) 3
    ∧ mapEntry [0x85#8, 0x34#8] (.staZp 0x34#8) 3
    ∧ mapEntry [0x86#8, 0x34#8] (.stxZp 0x34#8) 3
    ∧ mapEntry [0x88#8] (.dey) 2
    ∧ mapEntry [0x8A#8] (.txa) 2
    ∧ mapEntry [0x8C#8, 0x34#8, 0x92#8] (.styAbs 0x9234#16) 4
    ∧ mapEntry [0x8D#8, 0x34#8, 0x92#8] (.staAbs 0x9234#16) 4
    ∧ mapEntry [0x8E#8, 0x34#8, 0x92#8] (.stxAbs 0x9234#16) 4 := by decide

theorem test_map_row_9 :
    mapEntry [0x90#8, 0x34#8] (.bcc 0x34#8) 2
    ∧ mapEntry [0x91#8, 0x34#8] (.staIzy 0x34#8) 6
    ∧ mapEntry [0x94#8, 0x34#8] (.styZpx 0x34#8) 4
    ∧ mapEntry [0x95#8, 0x34#8] (.staZpx 0x34#8) 4
    ∧ mapEntry [0x96#8, 0x34#8] (.stxZpy 0x34#8) 4
    ∧ mapEntry [0x98#8] (.tya) 2
    ∧ mapEntry [0x99#8, 0x34#8, 0x92#8] (.staAby 0x9234#16) 5
    ∧ mapEntry [0x9A#8] (.txs) 2
    ∧ mapEntry [0x9D#8, 0x34#8, 0x92#8] (.staAbx 0x9234#16) 5 := by decide

theorem test_map_row_A :
    mapEntry [0xA0#8, 0x34#8] (.ldyImm 0x34#8) 2
    ∧ mapEntry [0xA1#8, 0x34#8] (.ldaIzx 0x34#8) 6
    ∧ mapEntry [0xA2#8, 0x34#8] (.ldxImm 0x34#8) 2
    ∧ mapEntry [0xA4#8, 0x34#8] (.ldyZp 0x34#8) 3
    ∧ mapEntry [0xA5#8, 0x34#8] (.ldaZp 0x34#8) 3
    ∧ mapEntry [0xA6#8, 0x34#8] (.ldxZp 0x34#8) 3
    ∧ mapEntry [0xA8#8] (.tay) 2
    ∧ mapEntry [0xA9#8, 0x34#8] (.ldaImm 0x34#8) 2
    ∧ mapEntry [0xAA#8] (.tax) 2
    ∧ mapEntry [0xAC#8, 0x34#8, 0x92#8] (.ldyAbs 0x9234#16) 4
    ∧ mapEntry [0xAD#8, 0x34#8, 0x92#8] (.ldaAbs 0x9234#16) 4
    ∧ mapEntry [0xAE#8, 0x34#8, 0x92#8] (.ldxAbs 0x9234#16) 4 := by decide

theorem test_map_row_B :
    mapEntry [0xB0#8, 0x34#8] (.bcs 0x34#8) 2
    ∧ mapEntry [0xB1#8, 0x34#8] (.ldaIzy 0x34#8) 5
    ∧ mapEntry [0xB4#8, 0x34#8] (.ldyZpx 0x34#8) 4
    ∧ mapEntry [0xB5#8, 0x34#8] (.ldaZpx 0x34#8) 4
    ∧ mapEntry [0xB6#8, 0x34#8] (.ldxZpy 0x34#8) 4
    ∧ mapEntry [0xB8#8] (.clv) 2
    ∧ mapEntry [0xB9#8, 0x34#8, 0x92#8] (.ldaAby 0x9234#16) 4
    ∧ mapEntry [0xBA#8] (.tsx) 2
    ∧ mapEntry [0xBC#8, 0x34#8, 0x92#8] (.ldyAbx 0x9234#16) 4
    ∧ mapEntry [0xBD#8, 0x34#8, 0x92#8] (.ldaAbx 0x9234#16) 4
    ∧ mapEntry [0xBE#8, 0x34#8, 0x92#8] (.ldxAby 0x9234#16) 4 := by decide

theorem test_map_row_C :
    mapEntry [0xC0#8, 0x34#8] (.cpyImm 0x34#8) 2
    ∧ mapEntry [0xC1#8, 0x34#8] (.cmpIzx 0x34#8) 6
    ∧ mapEntry [0xC4#8, 0x34#8] (.cpyZp 0x34#8) 3
    ∧ mapEntry [0xC5#8, 0x34#8] (.cmpZp 0x34#8) 3
    ∧ mapEntry [0xC6#8, 0x34#8] (.decZp 0x34#8) 5
    ∧ mapEntry [0xC8#8] (.iny) 2
    ∧ mapEntry [0xC9#8, 0x34#8] (.cmpImm 0x34#8) 2
    ∧ mapEntry [0xCA#8] (.dex) 2
    ∧ mapEntry [0xCC#8, 0x34#8, 0x92#8] (.cpyAbs 0x9234#16) 4
    ∧ mapEntry [0xCD#8, 0x34#8, 0x92#8] (.cmpAbs 0x9234#16) 4
    ∧ mapEntry [0xCE#8, 0x34#8, 0x92#8] (.decAbs 0x9234#16) 6 := by decide

theorem test_map_row_D :
    mapEntry [0xD0#8, 0x34#8] (.bne 0x34#8) 2
    ∧ mapEntry [0xD1#8, 0x34#8] (.cmpIzy 0x34#8) 5
    ∧ mapEntry [0xD5#8, 0x34#8] (.cmpZpx 0x34#8) 4
    ∧ mapEntry [0xD6#8, 0x34#8] (.decZpx 0x34#8) 6
    ∧ mapEntry [0xD8#8] (.cld) 2
    ∧ mapEntry [0xD9#8, 0x34#8, 0x92#8] (.cmpAby 0x9234#16) 4
    ∧ mapEntry [0xDD#8, 0x34#8, 0x92#8] (.cmpAbx 0x9234#16) 4
    ∧ mapEntry [0xDE#8, 0x34#8, 0x92#8] (.decAbx 0x9234#16) 7 := by decide

theorem test_map_row_E :
    mapEntry [0xE0#8, 0x34#8] (.cpxImm 0x34#8) 2
    ∧ mapEntry [0xE1#8, 0x34#8] (.sbcIzx 0x34#8) 6
    ∧ mapEntry [0xE4#8, 0x34#8] (.cpxZp 0x34#8) 3
    ∧ mapEntry [0xE5#8, 0x34#8] (.sbcZp 0x34#8) 3
    ∧ mapEntry [0xE6#8, 0x34#8] (.incZp 0x34#8) 5
    ∧ mapEntry [0xE8#8] (.inx) 2
    ∧ mapEntry [0xE9#8, 0x34#8] (.sbcImm 0x34#8) 2
    ∧ mapEntry [0xEA#8] (.nop) 2
    ∧ mapEntry [0xEC#8, 0x34#8, 0x92#8] (.cpxAbs 0x9234#16) 4
    ∧ mapEntry [0xED#8, 0x34#8, 0x92#8] (.sbcAbs 0x9234#16) 4
    ∧ mapEntry [0xEE#8, 0x34#8, 0x92#8] (.incAbs 0x9234#16) 6 := by decide

theorem test_map_row_F :
    mapEntry [0xF0#8, 0x34#8] (.beq 0x34#8) 2
    ∧ mapEntry [0xF1#8, 0x34#8] (.sbcIzy 0x34#8) 5
    ∧ mapEntry [0xF5#8, 0x34#8] (.sbcZpx 0x34#8) 4
    ∧ mapEntry [0xF6#8, 0x34#8] (.incZpx 0x34#8) 6
    ∧ mapEntry [0xF8#8] (.sed) 2
    ∧ mapEntry [0xF9#8, 0x34#8, 0x92#8] (.sbcAby 0x9234#16) 4
    ∧ mapEntry [0xFD#8, 0x34#8, 0x92#8] (.sbcAbx 0x9234#16) 4
    ∧ mapEntry [0xFE#8, 0x34#8, 0x92#8] (.incAbx 0x9234#16) 7 := by decide

/-- Every byte of R92 decodes to `illegal`, whatever follows it. -/
theorem test_illegal_bytes : illegalOpcodes.all (fun k => decode [BitVec.ofNat 8 k, 0x55#8]
    == .ok (.illegal (BitVec.ofNat 8 k)) [0x55#8]) = true := by decide

theorem test_truncated : decode [0xAD#8, 0x34#8] = .truncated 0xAD#8 ∧ decode [] = .noBytes := by decide

/-! ## States -/

/-- The start state of 95_test_vectors: the reset defaults, a blank 16KB Horizontal cartridge, the default policies. -/
abbrev start : State := State.resetWith blankCartridge ⟨.fault, .none, 513, 2⟩

/-- The start state with bytes placed at an address and PC there. -/
abbrev code (pc : Addr) (bytes : List Byte) : State := placeBytes pc bytes { start with pc := pc }

/-- The same with the policies that are not the default. -/
abbrev lax (s : State) : State := { s with cfg := ⟨.degrade, .standard, 513, 2⟩ }

/-- Whether an outcome is a next state with a property. -/
abbrev goes (r : StepOutcome) (ok : State → Bool) : Bool :=
  match r with
  | .next t => ok t
  | .fault _ => false
  | .refused _ => false

/-- Whether an outcome is a given fault. -/
abbrev stops (r : StepOutcome) (f : Fault) : Bool :=
  match r with
  | .next _ => false
  | .fault g => g == f
  | .refused _ => false

/-! ## Single steps from 95_test_vectors -/

theorem test_V4_lda_zpx_wraps :
    goes (step ((({ code 0x8000#16 [0xB5#8, 0xFF#8] with x := 2#8 }.writeRam 1 0x11#8)).writeRam 0x101 0x22#8))
      (fun t => t.a == 0x11#8 && t.pc == 0x8002#16 && t.cycles == 4 && t.ppu.dot == 12) = true := by decide

theorem test_V8_lda_aby_page_cross :
    goes (step (lax ({ code 0x8000#16 [0xB9#8, 0xF0#8, 0x02#8] with y := 0x20#8 }.writeRam 0x310 0x44#8)))
      (fun t => t.a == 0x44#8 && t.cycles == 5) = true := by decide

theorem test_V9_lda_izx_pointer_wraps :
    goes (step (((({ code 0x8000#16 [0xA1#8, 0xFE#8] with x := 1#8 }.writeRam 0xFF 0x34#8).writeRam 0 0x02#8).writeRam
      0x100 0x07#8).writeRam 0x234 0x5A#8)) (fun t => t.a == 0x5A#8 && t.cycles == 6) = true := by decide

theorem test_V12_ldx_zpy_wraps :
    goes (step ({ code 0x8000#16 [0xB6#8, 0xF0#8] with y := 0x20#8 }.writeRam 0x10 1#8))
      (fun t => t.x == 1#8 && t.p == 0x24#8) = true := by decide

theorem test_V13_ldy_abx_zero :
    goes (step { code 0x8000#16 [0xBC#8, 0x00#8, 0x02#8] with x := 0x10#8, y := 7#8 })
      (fun t => t.y == 0#8 && t.p == 0x26#8 && t.pc == 0x8003#16) = true := by decide

theorem test_V15_sta_izy_never_pays :
    goes (step (lax (({ code 0x8000#16 [0x91#8, 0x12#8] with a := 0x5A#8, y := 2#8 }.writeRam 0x12 0xFE#8).writeRam 0x13
      0x02#8))) (fun t => t.ram.read 0x300 == 0x5A#8 && t.cycles == 6 && t.p == 0x24#8) = true := by decide

theorem test_V16_stx_zpy_wraps :
    goes (step { code 0x8000#16 [0x96#8, 0x10#8] with x := 0x77#8, y := 0xF5#8 })
      (fun t => t.ram.read 5 == 0x77#8 && t.cycles == 4) = true := by decide

theorem test_V17_sty_zpx :
    goes (step { code 0x8000#16 [0x94#8, 0x10#8] with y := 0x88#8, x := 1#8 })
      (fun t => t.ram.read 0x11 == 0x88#8) = true := by decide

theorem test_V22_txs_writes_no_flag :
    goes (step { code 0x8000#16 [0x9A#8] with x := 0#8, p := 0xA4#8 })
      (fun t => t.sp == 0#8 && t.p == 0xA4#8) = true := by decide

theorem test_V34_adc_carry_and_overflow :
    goes (step { code 0x8000#16 [0x69#8, 0x80#8] with a := 0x80#8 })
      (fun t => t.a == 0#8 && t.p == 0x67#8) = true := by decide

theorem test_V35_adc_ignores_decimal :
    goes (step { code 0x8000#16 [0x69#8, 0x09#8] with a := 0x09#8, p := 0x2C#8 })
      (fun t => t.a == 0x12#8 && t.p == 0x2C#8) = true := by decide

theorem test_V37_sbc_signed_overflow :
    goes (step { code 0x8000#16 [0xE9#8, 0xB0#8] with a := 0x50#8, p := 0x25#8 })
      (fun t => t.a == 0xA0#8 && t.p == 0xE4#8) = true := by decide

theorem test_V39_sbc_with_borrow_in :
    goes (step { code 0x8000#16 [0xE9#8, 0x01#8] with a := 0x03#8 })
      (fun t => t.a == 0x01#8 && t.p == 0x25#8) = true := by decide

theorem test_V42_V43_V44_logic :
    goes (step { code 0x8000#16 [0x29#8, 0x0F#8] with a := 0xF0#8 }) (fun t => t.a == 0#8 && t.p == 0x26#8) = true
    ∧ goes (step { code 0x8000#16 [0x09#8, 0x80#8] with a := 1#8 }) (fun t => t.a == 0x81#8 && t.p == 0xA4#8) = true
    ∧ goes (step { code 0x8000#16 [0x49#8, 0xFF#8] with a := 0xFF#8 }) (fun t => t.a == 0#8 && t.p == 0x26#8) = true := by
  decide

theorem test_V46_V48_cmp :
    goes (step { code 0x8000#16 [0xC9#8, 0x14#8] with a := 0x0A#8 }) (fun t => t.p == 0xA4#8 && t.a == 0x0A#8) = true
    ∧ goes (step { code 0x8000#16 [0xC9#8, 0x00#8] with a := 0x80#8, p := 0x64#8 }) (fun t => t.p == 0xE5#8) = true := by
  decide

theorem test_V49_cpx : goes (step ({ code 0x8000#16 [0xE4#8, 0x10#8] with x := 1#8 }.writeRam 0x10 0xFF#8))
    (fun t => t.p == 0x24#8 && t.cycles == 3) = true := by decide

theorem test_V50_cpy : goes (step ({ code 0x8000#16 [0xCC#8, 0x00#8, 0x02#8] with y := 0x40#8 }.writeRam 0x200 0x40#8))
    (fun t => t.p == 0x27#8 && t.cycles == 4) = true := by decide

theorem test_V51_bit : goes (step ({ code 0x8000#16 [0x24#8, 0x10#8] with a := 1#8 }.writeRam 0x10 0xC0#8))
    (fun t => t.p == 0xE6#8 && t.a == 1#8) = true := by decide

theorem test_V53_inc_wraps : goes (step ({ code 0x8000#16 [0xE6#8, 0x10#8] with p := 0x25#8 }.writeRam 0x10 0xFF#8))
    (fun t => t.ram.read 0x10 == 0#8 && t.p == 0x27#8 && t.cycles == 5) = true := by decide

theorem test_V54_dec_wraps : goes (step { code 0x8000#16 [0xDE#8, 0x00#8, 0x02#8] with x := 1#8 })
    (fun t => t.ram.read 0x201 == 0xFF#8 && t.p == 0xA4#8 && t.cycles == 7) = true := by decide

theorem test_V55_V56_index_wraps :
    goes (step { code 0x8000#16 [0xE8#8] with x := 0xFF#8 }) (fun t => t.x == 0#8 && t.p == 0x26#8) = true
    ∧ goes (step (code 0x8000#16 [0x88#8])) (fun t => t.y == 0xFF#8 && t.p == 0xA4#8) = true := by decide

theorem test_V61_asl : goes (step { code 0x8000#16 [0x0A#8] with a := 0x41#8, p := 0x25#8 })
    (fun t => t.a == 0x82#8 && t.p == 0xA4#8) = true := by decide

theorem test_V63_lsr : goes (step ({ code 0x8000#16 [0x46#8, 0x10#8] with p := 0xA4#8 }.writeRam 0x10 0xFE#8))
    (fun t => t.ram.read 0x10 == 0x7F#8 && t.p == 0x24#8) = true := by decide

theorem test_V64_rol : goes (step { code 0x8000#16 [0x2A#8] with a := 0x80#8, p := 0x25#8 })
    (fun t => t.a == 0x01#8 && t.p == 0x25#8) = true := by decide

theorem test_V67_ror : goes (step ({ code 0x8000#16 [0x76#8, 0x10#8] with x := 1#8, p := 0x25#8 }.writeRam 0x11 0x02#8))
    (fun t => t.ram.read 0x11 == 0x81#8 && t.p == 0xA4#8 && t.cycles == 6) = true := by decide

theorem test_V72_bne_backward : goes (step (code 0x8005#16 [0xD0#8, 0xFB#8]))
    (fun t => t.pc == 0x8002#16 && t.cycles == 3) = true := by decide

theorem test_V75_bpl_page_cross : goes (step (lax (code 0x80F0#16 [0x10#8, 0x7F#8])))
    (fun t => t.pc == 0x8171#16 && t.cycles == 4) = true := by decide

theorem test_V77_bvc_wraps : goes (step (code 0xFFF0#16 [0x50#8, 0x7F#8]))
    (fun t => t.pc == 0x0071#16 && t.cycles == 3) = true := by decide

theorem test_V79_jmp_page_bug :
    goes (step ((((code 0x8000#16 [0x6C#8, 0xFF#8, 0x02#8]).writeRam 0x2FF 0x34#8).writeRam 0x200 0x12#8).writeRam
      0x300 0x56#8)) (fun t => t.pc == 0x1234#16 && t.cycles == 5) = true := by decide

theorem test_V81_jsr : goes (step (code 0x1233#16 [0x20#8, 0x25#8, 0x20#8]))
    (fun t => t.ram.read 0x1FD == 0x12#8 && t.ram.read 0x1FC == 0x35#8 && t.sp == 0xFB#8 && t.pc == 0x2025#16
      && t.cycles == 6) = true := by decide

theorem test_V82_rts :
    goes (step (({ code 0x8000#16 [0x60#8] with sp := 0xFB#8 }.writeRam 0x1FC 0x35#8).writeRam 0x1FD 0x12#8))
      (fun t => t.pc == 0x1236#16 && t.sp == 0xFD#8) = true := by decide

theorem test_V91_pha_wraps : goes (step { code 0x8000#16 [0x48#8] with a := 0x42#8, sp := 0#8 })
    (fun t => t.ram.read 0x100 == 0x42#8 && t.sp == 0xFF#8) = true := by decide

theorem test_V92_pla_wraps : goes (step ({ code 0x8000#16 [0x68#8] with sp := 0xFF#8, a := 0x11#8 }.writeRam 0x100 0x80#8))
    (fun t => t.a == 0x80#8 && t.sp == 0#8 && t.p == 0xA4#8) = true := by decide

theorem test_V93_php : goes (step (code 0x8000#16 [0x08#8]))
    (fun t => t.ram.read 0x1FD == 0x34#8 && t.p == 0x24#8) = true := by decide

theorem test_V95_V96_plp :
    goes (step ({ code 0x8000#16 [0x28#8] with sp := 0xFC#8 }.writeRam 0x1FD 0xFF#8)) (fun t => t.p == 0xEF#8) = true
    ∧ goes (step { code 0x8000#16 [0x28#8] with sp := 0xFC#8 }) (fun t => t.p == 0x20#8) = true := by decide

theorem test_V102_brk :
    goes (step { placeBytes 0xFFFE#16 [0x00#8, 0x90#8] (code 0x8000#16 [0x00#8, 0xFF#8]) with p := 0x21#8 })
      (fun t => t.ram.read 0x1FD == 0x80#8 && t.ram.read 0x1FC == 0x02#8 && t.ram.read 0x1FB == 0x31#8 && t.sp == 0xFA#8
        && t.p == 0x25#8 && t.pc == 0x9000#16 && t.cycles == 7) = true := by decide

theorem test_V104_rti :
    goes (step (((code 0x8000#16 [0x40#8]).writeRam 0x1FB 0xFF#8).writeRam 0x1FC 0x34#8 |>.writeRam 0x1FD 0x12#8
      |> fun s => { s with sp := 0xFA#8 })) (fun t => t.p == 0xEF#8 && t.pc == 0x1234#16 && t.sp == 0xFD#8) = true := by
  decide

theorem test_V105_illegal :
    stops (step (code 0x8000#16 [0x02#8])) (.illegalOpcode 0x02#8 0x8000#16) = true
    ∧ (driverStep (code 0x8000#16 [0x02#8])).pc = 0x8001#16
    ∧ (driverStep (code 0x8000#16 [0x02#8])).cycles = 0 := by decide

theorem test_V110_nmi :
    goes (step { placeBytes 0xFFFA#16 [0x00#8, 0x90#8] start with
        pc := 0x8123#16, p := 0x61#8, ppu := { start.ppu with scanline := 10, dot := 339, nmiPending := true } })
      (fun t => t.ram.read 0x1FD == 0x81#8 && t.ram.read 0x1FC == 0x23#8 && t.ram.read 0x1FB == 0x61#8 && t.sp == 0xFA#8
        && t.p == 0x65#8 && t.pc == 0x9000#16 && !t.ppu.nmiPending && t.ppu.scanline == 11 && t.ppu.dot == 0
        && t.cycles == 0) = true := by decide

theorem test_V124_status_read :
    goes (step { code 0x8000#16 [0x2C#8, 0x02#8, 0x20#8] with
        a := 0x34#8, ppu := { start.ppu with status := 0x80#8, w := true } })
      (fun t => t.ppu.status == 0#8 && !t.ppu.w && t.p == 0xA6#8) = true := by decide

theorem test_V126_nmi_edge :
    goes (step { code 0x8000#16 [0x8D#8, 0x00#8, 0x20#8] with a := 0x80#8, ppu := { start.ppu with status := 0x80#8 } })
      (fun t => t.ppu.ctrl == 0x80#8 && t.ppu.nmiPending) = true := by decide

theorem test_V129_chr_write :
    stops (step { code 0x8000#16 [0x8D#8, 0x07#8, 0x20#8] with ppu := { start.ppu with vramAddr := 0x0012#14 } })
      (.romWrite .chr 0x0012#16) = true
    ∧ (driverStep { code 0x8000#16 [0x8D#8, 0x07#8, 0x20#8] with
        ppu := { start.ppu with vramAddr := 0x0012#14 } }).ppu.vramAddr = 0x0013#14 := by decide

theorem test_V131_to_V134_faults :
    stops (step (code 0x8000#16 [0xAD#8, 0x00#8, 0x20#8])) (.registerAccessViolation .read 0#3) = true
    ∧ stops (step (code 0x8000#16 [0x8D#8, 0x02#8, 0x20#8])) (.registerAccessViolation .write 2#3) = true
    ∧ stops (step (code 0x8000#16 [0x8D#8, 0x00#8, 0x80#8])) (.romWrite .prg 0x8000#16) = true
    ∧ stops (step (code 0x8000#16 [0x8D#8, 0x00#8, 0x40#8])) (.outOfRangeAccess .write 0x4000#16) = true := by decide

/-- The frame wraps on the last dot of scanline 261 and VBlank starts on the first of 241 (V120, V123). -/
theorem test_V120_frame_edges :
    (ppuAdvance 1 { Ppu.reset with scanline := 240, dot := 340, ctrl := 0x80#8 }).status = 0x80#8
    ∧ (ppuAdvance 1 { Ppu.reset with scanline := 240, dot := 340, ctrl := 0x80#8 }).nmiPending = true
    ∧ ppuAdvance 1 { Ppu.reset with scanline := 261, dot := 340, status := 0x80#8, nmiPending := true } = Ppu.reset := by
  decide

/-! ## A word placed by the host runs as the first instruction after reset -/

theorem test_withFetchWord :
    goes (step (State.reset.withFetchWord 16 0x80A9)) (fun t => t.a == 0x80#8 && t.pc == 0x0002#16) = true
    ∧ decodeTableWord 8 0xAD = some (.ldaAbs 0#16) ∧ decodeTableWord 24 0x1234AD = some (.ldaAbs 0x1234#16) := by decide

theorem of_goes {r : StepOutcome} {ok : State → Bool} (h : goes r ok = true) : ∃ t, r = .next t := by
  cases r <;> simp_all [goes]

theorem of_stops {r : StepOutcome} {f : Fault} (h : stops r f = true) : ∃ f, r = .fault f := by
  cases r <;> simp_all [stops]

/-! ## Witnesses: the hypotheses of the obligations can be met -/

theorem test_meets_DecodeOfEncodeIsIdentity :
    (Instr.illegal 0xFF#8).wf = true ∧ (Instr.jmpInd 0xFFFF#16).wf = true ∧ (Instr.brk).wf = true := by decide

theorem test_meets_EncodeOfDecodeIsIdentity :
    decode [0xAD#8, 0x34#8, 0x12#8, 0x56#8] = .ok (.ldaAbs 0x1234#16) [0x56#8] ∧ isIllegalOpcode 0x02#8 = true
    ∧ decodeOpcode 0x02#8 0#8 0#8 = .illegal 0x02#8 ∧ decodeOpcode 0x00#8 0#8 0#8 ≠ .illegal 0x00#8 := by decide

/-- An instruction that lies across the top of the address space, and one whose fetch faults. -/
theorem test_meets_StepRunsDecodedInstruction :
    let s := code 0xFFFE#16 [0xAD#8, 0x34#8, 0x12#8]
    s.fault = none ∧ s.ppu.nmiPending = false ∧ codeAt s s.pc [0xAD#8, 0x34#8, 0x12#8] = true
    ∧ decode [0xAD#8, 0x34#8, 0x12#8] = .ok (.ldaAbs 0x1234#16) []
    ∧ fetchInstr s = .ok (.ldaAbs 0x1234#16) { s with pc := 0x0001#16, cycles := 4 }
    ∧ fetchInstr (code 0x2000#16 []) = .fault (.registerAccessViolation .read 0#3) (code 0x2000#16 []) := by decide

theorem test_meets_IllegalOpcodeStops :
    let s := code 0x8000#16 [0xFF#8]
    s.fault = none ∧ s.ppu.nmiPending = false ∧ busRead s.pc s = .ok 0xFF#8 s ∧ isIllegalOpcode 0xFF#8 = true := by decide

theorem test_meets_FaultedMachineIsStuck :
    { start with fault := some (.romWrite .prg 0x8000#16) }.fault = some (.romWrite .prg 0x8000#16) := by decide

theorem test_meets_NmiServiceStep :
    let s : State := { start with ppu := { start.ppu with nmiPending := true } }
    s.fault = none ∧ s.ppu.nmiPending = true ∧ s.ram.wf ramSize = true := by decide

theorem test_meets_DriverViewAgreesWithStep :
    (∃ t, step (code 0x8000#16 [0xEA#8]) = .next t)
    ∧ ∃ f, step (code 0x8000#16 [0x02#8]) = .fault f := ⟨of_goes (ok := fun _ => true) (by decide), of_stops test_V105_illegal.1⟩

theorem test_meets_ResetStateIsWellFormed : blankCartridge.wf = true := by decide

/-- An image with a trainer loads (V130), and an empty one is refused. -/
theorem test_meets_LoaderExtractsSlices :
    (∀ pad : List Byte, pad.length = 25097 →
      ∃ c, loadCartridge (0x4E#8 :: 0x45#8 :: 0x53#8 :: 0x1A#8 :: 1#8 :: 1#8 :: 4#8 :: 0#8 :: pad.tail) = .ok c)
    ∧ (List.replicate 25097 0#8).length = 25097 ∧ loadCartridge [] = .error .badMagic := by
  refine ⟨fun pad h => ?_, List.length_replicate, rfl⟩
  simp [loadCartridge, hasMagic, imageByte, mapperNumber, headerPrgSize, prgStart, prgBytes, h]

theorem test_meets_RamIsMirrored :
    start.ram.wf ramSize = true ∧ (0x07FF#16).toNat ≤ 0x1FFF ∧ (0x1FFF#16).toNat ≤ 0x1FFF
    ∧ (0x1FFF#16).toNat % 0x800 = (0x07FF#16).toNat % 0x800 := by decide

theorem test_meets_PrgAndOutOfRangeAccesses :
    start.cart.prgSize = .k16 ∧ { blankCartridge with prgSize := .k32 }.prgSize = .k32
    ∧ start.cfg.oorPolicy = .fault ∧ (lax start).cfg.oorPolicy = .degrade
    ∧ (([0x8000#16, 0xFFFF#16].all fun a =>
      decide (0x8000 ≤ a.toNat)) = true)
    ∧ ([0x4000#16, 0x4013#16, 0x4015#16, 0x7FFF#16].all fun a =>
      decide (0x4000 ≤ a.toNat ∧ a.toNat ≤ 0x7FFF ∧ a ≠ 0x4014#16)) = true := by decide

theorem test_meets_RejectedPortAccesses :
    (([0x2000#16, 0x2001#16, 0x2003#16, 0x2005#16, 0x3FFE#16].all fun a =>
      decide (0x2000 ≤ a.toNat ∧ a.toNat ≤ 0x3FFF ∧ a.toNat % 8 ∈ [0, 1, 3, 5, 6])) = true)
    ∧ ([0x2002#16, 0x3FFA#16].all fun a =>
      decide (0x2000 ≤ a.toNat ∧ a.toNat ≤ 0x3FFF ∧ a.toNat % 8 = 2)) = true := by decide

/-- Both sides of the equivalence occur, at every edge of the map. -/
theorem test_meets_BusWriteCompletesExactly :
    (([0x0000#16, 0x1FFF#16, 0x2000#16, 0x3FFE#16, 0x4014#16].all fun a =>
      decide (busWritable a 0#8 start = true)) = true)
    ∧ (([0x2002#16, 0x3FFF#16, 0x4000#16, 0x7FFF#16, 0x8000#16, 0xFFFF#16].all fun a =>
      decide (busWritable a 0#8 start = false)) = true)
    ∧ busWritable 0x4000#16 0#8 (lax start) = true
    ∧ busWritable 0x3FFF#16 0#8 { start with ppu := { start.ppu with vramAddr := 0x2000#14 } } = true := by decide

theorem test_meets_OamDmaCopiesPage :
    start.ppu.oam.wf oamSize = true
    ∧ (([0x00#8, 0x1F#8, 0x80#8, 0xFF#8].all fun v =>
      decide (dmaReadable v start = true)) = true)
    ∧ (([0x20#8, 0x3F#8].all fun v =>
      decide (0x20 ≤ v.toNat ∧ v.toNat ≤ 0x3F)) = true)
    ∧ (([0x40#8, 0x7F#8].all fun v =>
      decide (0x40 ≤ v.toNat ∧ v.toNat ≤ 0x7F ∧ dmaReadable v start = false)) = true)
    ∧ start.cfg.oorPolicy = .fault := by decide

theorem test_meets_PullAfterPush : { start with sp := 0#8 }.ram.wf ramSize = true := by decide

theorem test_meets_OperandsAreRead :
    (effectiveAddress (.abs 0x1FFF#16) start).toNat ≤ 0x1FFF ∧ 0x8000 ≤ (effectiveAddress (.abs 0x8000#16) start).toNat
    ∧ ([0x0000#16, 0x1FFF#16, 0x2002#16, 0x3FFF#16, 0x8000#16, 0xFFFF#16].all fun a => busReadable a start) = true
    ∧ ([0x2000#16, 0x3FFE#16, 0x4000#16, 0x4014#16, 0x7FFF#16].any fun a => busReadable a start) = false
    ∧ busReadable 0x4000#16 (lax start) = true := by decide

theorem test_meets_LoadsLoad :
    sourceReadable (.mem (.abs 0x2007#16)) start = true ∧ opOf (.ldaAbs 0x2007#16) = .lda (.mem (.abs 0x2007#16))
    ∧ sourceReadable (.mem (.zpy 0xFF#8)) start = true ∧ opOf (.ldxZpy 0xFF#8) = .ldx (.mem (.zpy 0xFF#8))
    ∧ sourceReadable (.imm 0#8) start = true ∧ opOf (.ldyImm 0#8) = .ldy (.imm 0#8) := by decide

theorem test_meets_StoresStore :
    storeOf (opOf (.staAbs 0x4014#16)) = some (.a, .abs 0x4014#16)
    ∧ busWritable (effectiveAddress (.abs 0x4014#16) start) (start.reg .a) start = true
    ∧ storeOf (opOf (.stxZpy 0xFF#8)) = some (.x, .zpy 0xFF#8)
    ∧ (effectiveAddress (.zpy 0xFF#8) start).toNat ≤ 0x1FFF
    ∧ storeOf (opOf (.styAbs 0x1FFF#16)) = some (.y, .abs 0x1FFF#16)
    ∧ (effectiveAddress (.abs 0x1FFF#16) start).toNat ≤ 0x1FFF := by decide

theorem test_meets_StoresThatFault :
    (∀ w, storeOf (opOf (.staAbs w)) = some (.a, .abs w) ∧ effectiveAddress (.abs w) start = w)
    ∧ 0x8000 ≤ (0x8000#16).toNat ∧ (0x3FFA#16).toNat % 8 = 2 ∧ (0x3FFA#16).toNat ≤ 0x3FFF ∧ 0x2000 ≤ (0x2002#16).toNat
    ∧ (0x3FFF#16).toNat % 8 = 7 ∧ start.ppu.vramAddr.toNat ≤ 0x1FFF ∧ (0x7FFF#16).toNat ≤ 0x7FFF
    ∧ (0x4000#16 : Addr) ≠ 0x4014#16 ∧ start.cfg.oorPolicy = .fault
    ∧ busWritable 0x4014#16 0x20#8 start = false ∧ busWritable 0x8000#16 0#8 start = false
    ∧ ([0x20#8, 0x3F#8].all fun v => decide (0x20 ≤ ({ start with a := v }.reg .a).toNat
        ∧ ({ start with a := v }.reg .a).toNat ≤ 0x3F)) = true
    ∧ ([0x40#8, 0x7F#8].all fun v => decide (0x40 ≤ ({ start with a := v }.reg .a).toNat
        ∧ ({ start with a := v }.reg .a).toNat ≤ 0x7F)) = true := by
  refine ⟨fun _ => ⟨rfl, rfl⟩, ?_⟩
  decide

/-- Each clause: a read that faults, a store to $4014 from a page that cannot be read, a read-modify-write whose read faults, one whose write faults for every value, and a
pointer whose first or second byte cannot be read. -/
theorem test_meets_FaultingAccessEndsInstruction :
    (readSource (opOf (.ldaAbs 0x2000#16)) = some (.mem (.abs 0x2000#16))
      ∧ readOperand (.mem (.abs 0x2000#16)) start = .fault (.registerAccessViolation .read 0#3) start)
    ∧ (storeOf (opOf (.stxAbs 0x4014#16)) = some (.x, .abs 0x4014#16)
      ∧ busWrite (effectiveAddress (.abs 0x4014#16) { start with x := 0x7F#8 }) ({ start with x := 0x7F#8 }.reg .x)
          { start with x := 0x7F#8 } = .fault (.outOfRangeAccess .read 0x7F00#16) { start with x := 0x7F#8 })
    ∧ (modifyOf (opOf (.incAbs 0x4000#16)) = some (.abs 0x4000#16)
      ∧ busRead (effectiveAddress (.abs 0x4000#16) start) start = .fault (.outOfRangeAccess .read 0x4000#16) start)
    ∧ (modifyOf (opOf (.aslAbs 0x8000#16)) = some (.abs 0x8000#16)
      ∧ busRead (effectiveAddress (.abs 0x8000#16) start) start = .ok 0#8 start
      ∧ ∀ r, ∃ u, busWrite (effectiveAddress (.abs 0x8000#16) start) r start = .fault (.romWrite .prg 0x8000#16) u)
    ∧ (opOf (.jmpInd 0x2000#16) = .jmp (.ind 0x2000#16)
      ∧ busRead 0x2000#16 start = .fault (.registerAccessViolation .read 0#3) start)
    ∧ (opOf (.jmpInd 0x2002#16) = .jmp (.ind 0x2002#16) ∧ busRead 0x2002#16 start = .ok 0#8 start
      ∧ busRead (word (lo 0x2002#16 + 1#8) (hi 0x2002#16)) start = .fault (.registerAccessViolation .read 3#3) start) := by
  refine ⟨by decide, ⟨rfl, rfl⟩, by decide, ⟨rfl, by decide, fun _ => ⟨start, rfl⟩⟩, by decide, by decide⟩

theorem test_meets_AdcAdds :
    opOf (.adcIzx 0xFF#8) = .adc (.mem (.izx 0xFF#8)) ∧ sourceReadable (.mem (.izx 0xFF#8)) start = true := by decide

theorem test_meets_SbcSubtracts :
    opOf (.sbcAbx 0xFFFF#16) = .sbc (.mem (.abx 0xFFFF#16))
    ∧ sourceReadable (.mem (.abx 0xFFFF#16)) { start with x := 1#8 } = true := by decide

theorem test_meets_LogicCombines :
    opOf (.andImm 1#8) = .and (.imm 1#8) ∧ opOf (.oraImm 1#8) = .ora (.imm 1#8) ∧ opOf (.eorImm 1#8) = .eor (.imm 1#8)
    ∧ sourceReadable (.imm 1#8) start = true := by decide

theorem test_meets_ComparesCompare :
    opOf (.cmpIzy 0#8) = .cmp (.mem (.izy 0#8)) ∧ sourceReadable (.mem (.izy 0#8)) start = true
    ∧ opOf (.cpxImm 0#8) = .cpx (.imm 0#8) ∧ opOf (.cpyImm 0#8) = .cpy (.imm 0#8)
    ∧ sourceReadable (.imm 0#8) start = true := by decide

theorem test_meets_BitTests :
    opOf (.bitAbs 0x2002#16) = .bit (.abs 0x2002#16) ∧ busReadable (effectiveAddress (.abs 0x2002#16) start) start = true := by
  decide

theorem test_meets_IncAndDecModifyMemory :
    opOf (.incZp 0x10#8) = .inc (.zp 0x10#8) ∧ (0x00#8).toNat = ((0xFF#8).toNat + 1) % 256
    ∧ opOf (.decZp 0x10#8) = .dec (.zp 0x10#8) ∧ (0xFE#8).toNat = ((0xFF#8).toNat + 255) % 256
    ∧ busRead (effectiveAddress (.zp 0x10#8) start) (start.writeRam 0x10 0xFF#8)
        = .ok 0xFF#8 (start.writeRam 0x10 0xFF#8)
    ∧ busWritable (effectiveAddress (.zp 0x10#8) start) 0x00#8 (start.writeRam 0x10 0xFF#8) = true := by decide

theorem test_meets_ShiftsShift :
    opOf .aslAcc = .asl .acc ∧ opOf .lsrAcc = .lsr .acc ∧ opOf .rolAcc = .rol .acc ∧ opOf .rorAcc = .ror .acc
    ∧ opOf (.aslZp 0x10#8) = .asl (.mem (.zp 0x10#8)) ∧ opOf (.lsrZp 0x10#8) = .lsr (.mem (.zp 0x10#8))
    ∧ opOf (.rolZp 0x10#8) = .rol (.mem (.zp 0x10#8)) ∧ opOf (.rorZp 0x10#8) = .ror (.mem (.zp 0x10#8))
    ∧ busRead (effectiveAddress (.zp 0x10#8) start) start = .ok 0#8 start
    ∧ ∀ f ∈ [shiftAsl, shiftLsr, shiftRol, shiftRor],
        busWritable (effectiveAddress (.zp 0x10#8) start) (f 0#8 (start.flag .carry)).result start = true := by
  refine ⟨rfl, rfl, rfl, rfl, rfl, rfl, rfl, rfl, by decide, fun _ _ => rfl⟩

/-- A taken and a not taken branch of the eight. -/
theorem test_meets_BranchesBranch :
    (Instr.bvs 0x80#8, 0x70#8, Flag.overflow, true) ∈
      [(Instr.bcc 0x80#8, 0x90#8, Flag.carry, false), (Instr.bcs 0x80#8, 0xB0#8, Flag.carry, true),
        (Instr.beq 0x80#8, 0xF0#8, Flag.zero, true), (Instr.bne 0x80#8, 0xD0#8, Flag.zero, false),
        (Instr.bmi 0x80#8, 0x30#8, Flag.negative, true), (Instr.bpl 0x80#8, 0x10#8, Flag.negative, false),
        (Instr.bvc 0x80#8, 0x50#8, Flag.overflow, false), (Instr.bvs 0x80#8, 0x70#8, Flag.overflow, true)]
    ∧ { start with p := 0x64#8 }.flag .overflow = true ∧ start.flag .overflow = false := by decide

theorem test_meets_JumpsJump :
    busRead 0x02FF#16 start = .ok 0#8 start ∧ busRead 0x0200#16 start = .ok 0#8 start
    ∧ (0x0200#16).toNat = (0x02FF#16).toNat - 255 ∧ busReadable 0x02FF#16 start = true
    ∧ busReadable 0x0200#16 start = true := by decide

theorem test_meets_JsrAndRts :
    start.ram.wf ramSize = true ∧ ∃ t, exec (.jsr 0x2025#16) start = .next t ∧ t.sp = t.sp ∧ t.ram = t.ram :=
  ⟨by decide, _, rfl, rfl, rfl⟩

theorem test_meets_FlagInstructionsAndNop :
    (Instr.clv, Flag.overflow, false) ∈ [(Instr.clc, Flag.carry, false), (Instr.clv, Flag.overflow, false)] := by decide

theorem test_meets_RtiReturns :
    start.ram.wf ramSize = true ∧ breakClearUnusedSet start = true ∧ ∃ t, exec .brk start = .next t :=
  ⟨by decide, by decide, _, rfl⟩

theorem test_meets_RegisterFrame :
    (∃ t, exec .inx start = .next t) ∧ Reg.a ∉ regsWritten (opOf .inx) ∧ Reg.sp ∉ regsWritten (opOf .inx) :=
  ⟨⟨_, rfl⟩, by decide⟩

theorem test_meets_FlagFrame :
    (∃ t, exec (.adcImm 1#8) start = .next t) ∧ Flag.decimal ∉ flagsWritten (opOf (.adcImm 1#8)) := ⟨⟨_, rfl⟩, by decide⟩

theorem test_meets_PcAndConfigurationFrame :
    (∃ t, exec (.staZp 1#8) start = .next t) ∧ transfersControl (opOf (.staZp 1#8)) = false := ⟨⟨_, rfl⟩, by decide⟩

theorem test_meets_MemoryFrameOfNonStoring :
    (∃ t, exec (.ldaAbs 0x2007#16) start = .next t) ∧ storeOf (opOf (.ldaAbs 0x2007#16)) = none
    ∧ modifyOf (opOf (.ldaAbs 0x2007#16)) = none ∧ pushes (opOf (.ldaAbs 0x2007#16)) = 0 := ⟨⟨_, rfl⟩, by decide⟩

theorem test_meets_MemoryFrameOfStores :
    storeOf (opOf (.staAbs 0x2004#16)) = some (.a, .abs 0x2004#16) ∧ (∃ t, exec (.staAbs 0x2004#16) start = .next t)
    ∧ writeTouches (effectiveAddress (.abs 0x2004#16) start) start (.oam 1) = false
    ∧ writeTouches (effectiveAddress (.abs 0x2004#16) start) start (.oam 0) = true := ⟨rfl, ⟨_, rfl⟩, by decide⟩

theorem test_meets_MemoryFrameOfModifies :
    modifyOf (opOf (.incZp 0x10#8)) = some (.zp 0x10#8)
    ∧ busRead (effectiveAddress (.zp 0x10#8) start) start = .ok 0#8 start ∧ (∃ t, exec (.incZp 0x10#8) start = .next t)
    ∧ writeTouches (effectiveAddress (.zp 0x10#8) start) start (.ram 0x11) = false := ⟨rfl, by decide, ⟨_, rfl⟩, by decide⟩

theorem test_meets_MemoryFrameOfPushes :
    pushes (opOf .brk) ≠ 0 ∧ (∃ t, exec .brk start = .next t)
    ∧ ∀ k, k < pushes (opOf .brk) → Place.ram 0x1FA ≠ .ram (0x100 + (start.sp - BitVec.ofNat 8 k).toNat) :=
  ⟨by decide, ⟨_, rfl⟩, by decide⟩

theorem test_meets_PpuFrameOfNonStoring :
    (∃ t, exec (.ldaAbs 0x4016#16) (lax start) = .next t) ∧ storeOf (opOf (.ldaAbs 0x4016#16)) = none
    ∧ modifyOf (opOf (.ldaAbs 0x4016#16)) = none
    ∧ readSource (opOf (.ldaAbs 0x4016#16)) = some (.mem (.abs 0x4016#16))
    ∧ outsidePpu (effectiveAddress (.abs 0x4016#16) (lax start)) = true
    ∧ outsidePpu 0x1FFF#16 = true ∧ outsidePpu (word (lo 0x1FFF#16 + 1#8) (hi 0x1FFF#16)) = true := ⟨⟨_, rfl⟩, by decide⟩

theorem test_meets_CyclesAdded : ∃ t, exec (.bcc 0x80#8) (lax start) = .next t := ⟨_, rfl⟩

theorem test_meets_InterruptAndDecimalFlagsHaveNoEffect :
    agreeBut .decimal start (start.setFlag .decimal true) ∧ opOf (.adcImm 9#8) ≠ .php ∧ opOf (.adcImm 9#8) ≠ .brk := by
  refine ⟨⟨rfl, fun g hg => ?_⟩, by decide⟩
  revert hg
  cases g <;> decide

theorem test_meets_StepKeepsStateWellFormed :
    start.wf = true ∧ ∃ t, step (code 0x0000#16 [0x8D#8, 0x07#8, 0x00#8]) = .next t :=
  ⟨by decide, of_goes (ok := fun _ => true) (by decide)⟩

theorem test_meets_StepKeepsBreakClearUnusedSet :
    breakClearUnusedSet (code 0x8000#16 [0x28#8]) = true ∧ ∃ t, step (code 0x8000#16 [0x28#8]) = .next t :=
  ⟨by decide, of_goes (ok := fun _ => true) (by decide)⟩

theorem test_meets_StepKeepsCartridgeAndCountsUp : ∃ t, step (code 0x8000#16 [0xEA#8]) = .next t :=
  of_goes (ok := fun _ => true) (by decide)

theorem test_meets_AdvanceMovesThroughFrame :
    { Ppu.reset with scanline := 261, dot := 340 }.dot < 341 ∧ { Ppu.reset with scanline := 261 }.scanline < 262 := by decide

theorem test_meets_TimingEvents :
    framePosition { Ppu.reset with scanline := 240, dot := 340 } + 1 = 241 * 341
    ∧ framePosition { Ppu.reset with scanline := 261, dot := 340 } + 1 = 262 * 341
    ∧ framePosition { Ppu.reset with scanline := 241, dot := 0 } + 1 ≠ 241 * 341 := by decide

theorem test_meets_OneVBlankPerFrame :
    { Ppu.reset with ctrl := 0x80#8 }.dot = 0 ∧ { Ppu.reset with ctrl := 0x80#8 }.scanline = 0
    ∧ { Ppu.reset with ctrl := 0x80#8 }.status.getLsbD 7 = false ∧ { Ppu.reset with ctrl := 0x80#8 }.nmiPending = false := by
  decide

/-- Both sources: the store that turns the enable bit on during VBlank, and the dot that enters scanline 241. -/
theorem test_meets_NmiSources :
    goes (exec (.staAbs 0x2000#16) { start with a := 0x80#8, ppu := { start.ppu with status := 0x80#8 } })
      (fun t => t.ppu.nmiPending) = true
    ∧ start.ppu.nmiPending = false
    ∧ (ppuDot { Ppu.reset with ctrl := 0x80#8, scanline := 240, dot := 340 }).nmiPending = true := by decide

theorem test_meets_RegisterPorts :
    ∀ k, k < 7 → 0x2000 ≤ (BitVec.ofNat 16 (0x2000 + k)).toNat ∧ (BitVec.ofNat 16 (0x3FF8 + k)).toNat ≤ 0x3FFF
      ∧ (BitVec.ofNat 16 (0x2000 + k)).toNat % 8 = k ∧ (BitVec.ofNat 16 (0x3FF8 + k)).toNat % 8 = k := by decide

/-- The address ranges of port 7 meet nowhere and leave nothing out: their first and last addresses. -/
theorem test_meets_DataPort :
    0x2000 ≤ (0x2007#16).toNat ∧ (0x3FFF#16).toNat ≤ 0x3FFF ∧ (0x2007#16).toNat % 8 = 7 ∧ (0x3FFF#16).toNat % 8 = 7
    ∧ (([0x0000#14, 0x1FFF#14].all fun va =>
      decide (va.toNat ≤ 0x1FFF)) = true)
    ∧ (([0x2000#14, 0x3EFF#14].all fun va =>
      decide (0x2000 ≤ va.toNat ∧ va.toNat ≤ 0x3EFF)) = true)
    ∧ (([0x3F00#14, 0x3FFF#14].all fun va =>
      decide (0x3F00 ≤ va.toNat)) = true) := by decide

end Sys2Proof.Tests
end

section
/-! PROOFS. The step (00_scope R6, 30_encoding R72, R73): the driver's view of it, the fetch of bytes that lie in RAM or PRG,
and what the decoder reads whatever the operand bytes are. -/

namespace Sys2Proof.Machine

/-! ## The driver's view (60_exceptions R200, R203, 70_reset_and_hazards R260) -/

/-- A result the host sees as a next state leaves the driver that state. -/
theorem Res.state_of_outcome_next {α : Type} {r : Res α} {t : State} (h : r.outcome = .next t) : r.state = t := by
  obtain ⟨v, rfl⟩ := Res.outcome_eq_next.1 h
  rfl

/-- A result the host sees as a fault leaves the driver a state that records it (R200). -/
theorem Res.state_fault_of_outcome_fault {α : Type} {r : Res α} {f : Fault} (h : r.outcome = .fault f) :
    r.state.fault = some f := by
  obtain ⟨t, rfl⟩ := Res.outcome_eq_fault.1 h
  rfl

/-- The host's instruction step is the outcome of the driver's, which runs the same instruction through `runOp`. -/
theorem instructionStep_eq_outcome (s : State) : instructionStep s = (instructionRun s).outcome := by
  unfold instructionStep instructionRun
  cases fetchInstr s with
  | fault f t => rfl
  | ok i t =>
    simp only [exec_eq_runOp, Res.bind_ok]
    cases runOp (opOf i) t <;> rfl

/-- With no fault recorded and no interrupt pending, a step is one instruction (R6 (c)). -/
theorem step_eq_instructionStep {s : State} (hf : s.fault = none) (hn : s.ppu.nmiPending = false) :
    step s = instructionStep s := by
  simp [step, hf, hn]

/-- Where no fault is recorded, the host and the driver read one and the same result of the step. -/
theorem step_driverStep_eq {s : State} (hf : s.fault = none) :
    ∃ r : Res Unit, step s = r.outcome ∧ driverStep s = r.state := by
  cases hn : s.ppu.nmiPending with
  | true => exact ⟨nmiService s, by simp [step, hf, hn], by simp [driverStep, hf, hn]⟩
  | false =>
    refine ⟨instructionRun s, ?_, by simp [driverStep, hf, hn]⟩
    rw [step_eq_instructionStep hf hn, instructionStep_eq_outcome]

/-- A machine with a fault recorded answers with that fault, and the driver sees no change (R203). -/
theorem step_driverStep_of_fault {s : State} {f : Fault} (hf : s.fault = some f) :
    step s = .fault f ∧ driverStep s = s := by
  simp [step, driverStep, hf]

/-- Settles O8: host and driver read one result of the step, and no result is a refusal. -/
theorem driverViewAgreesWithStep : Obligations.DriverViewAgreesWithStep := by
  intro s
  cases hf : s.fault with
  | some f =>
    obtain ⟨hstep, hdriver⟩ := step_driverStep_of_fault hf
    rw [hstep, hdriver]
    exact ⟨nofun, fun g hg => by cases hg; exact hf, nofun⟩
  | none =>
    obtain ⟨r, hstep, hdriver⟩ := step_driverStep_eq hf
    rw [hstep, hdriver]
    exact ⟨fun _ => Res.state_of_outcome_next, fun _ => Res.state_fault_of_outcome_fault, r.outcome_ne_refused⟩

/-! ## What the decoder reads (30_encoding R71, R89, R92) -/

/-- Operand bytes fill operand fields only: they decide neither well-formedness nor the base cycle cost. -/
theorem decodeOpcode_operands_irrelevant (opcode b1 b2 : Byte) :
    (decodeOpcode opcode b1 b2).wf = (decodeOpcode opcode 0#8 0#8).wf
      ∧ baseCycles (decodeOpcode opcode b1 b2) = baseCycles (decodeOpcode opcode 0#8 0#8) := by
  unfold decodeOpcode
  split <;> exact ⟨rfl, rfl⟩

theorem baseCycles_decodeOpcode (opcode b1 b2 : Byte) :
    baseCycles (decodeOpcode opcode b1 b2) = baseCycles (decodeOpcode opcode 0#8 0#8) :=
  (decodeOpcode_operands_irrelevant opcode b1 b2).2

/-- Each of the 256 opcode bytes decodes to a well-formed instruction: a byte with no entry is one of the 105 of R92. -/
theorem decodeOpcode_wf (opcode b1 b2 : Byte) : (decodeOpcode opcode b1 b2).wf = true := by
  rw [(decodeOpcode_operands_irrelevant opcode b1 b2).1]
  revert opcode
  decide +kernel

/-- Bytes that decode with none left over are an opcode and exactly its operand bytes. -/
theorem decode_eq_ok_nil {bs : List Byte} {i : Instr} (h : decode bs = .ok i []) :
    ∃ opcode operands, bs = opcode :: operands ∧ operandCount opcode = operands.length
      ∧ i = decodeOpcode opcode (operands.getD 0 0#8) (operands.getD 1 0#8) := by
  cases bs with
  | nil => cases h
  | cons opcode operands =>
    refine ⟨opcode, operands, rfl, ?_⟩
    simp only [decode] at h
    split at h <;> cases h <;> exact ⟨‹_›, rfl⟩

/-! ## Fetching bytes of RAM or PRG (R72, R73) -/

/-- A byte of RAM or PRG is read without a side effect. -/
theorem busRead_of_codeByte {a : Addr} {b : Byte} {s : State} (h : codeByte a s = some b) : busRead a s = .ok b s := by
  unfold codeByte at h
  split at h
  next hram => cases h; exact busRead_ram s hram
  next =>
    split at h
    next hprg => cases h; exact busRead_prg s hprg
    next => cases h

/-- Code at an address is a head byte there and the rest from the next address on. -/
theorem codeAt_cons {s : State} {a : Addr} {b : Byte} {bs : List Byte} :
    codeAt s a (b :: bs) = true ↔ codeByte a s = some b ∧ codeAt s (a + 1#16) bs = true := by
  simp [codeAt]

/-- Where the code lies depends on RAM and the cartridge alone. -/
theorem codeAt_congr {s t : State} (hram : s.ram = t.ram) (hcart : s.cart = t.cart) (a : Addr) (bs : List Byte) :
    codeAt s a bs = codeAt t a bs := by
  induction bs generalizing a with
  | nil => rfl
  | cons b bs ih => simp only [codeAt, codeByte, hram, hcart, ih]

@[simp] theorem codeAt_setPC (s : State) (w a : Addr) (bs : List Byte) : codeAt (s.setPC w) a bs = codeAt s a bs :=
  codeAt_congr (by rfl) (by rfl) a bs

@[simp] theorem codeAt_addCycles (s : State) (n : Nat) (a : Addr) (bs : List Byte) :
    codeAt (s.addCycles n) a bs = codeAt s a bs :=
  codeAt_congr (by rfl) (by rfl) a bs

/-- Fetching a byte of RAM or PRG moves PC past it and changes nothing else. -/
theorem fetch8_of_codeByte {b : Byte} {s : State} (h : codeByte s.pc s = some b) :
    fetch8 s = .ok b (s.setPC (s.pc + 1#16)) := by
  simp [fetch8, busRead_of_codeByte h]

/-- PC past one byte and then `n` more is PC past `n + 1`, modulo 65536. -/
theorem add_one_add_ofNat (w : Addr) (n : Nat) : w + 1#16 + BitVec.ofNat 16 n = w + BitVec.ofNat 16 (n + 1) := by
  rw [BitVec.add_assoc, ← BitVec.ofNat_add, Nat.add_comm]

/-- Fetching bytes of RAM or PRG moves PC past them and changes nothing else. -/
theorem fetchBytes_of_codeAt {bs : List Byte} {s : State} (h : codeAt s s.pc bs = true) :
    fetchBytes bs.length s = .ok bs (s.setPC (s.pc + BitVec.ofNat 16 bs.length)) := by
  induction bs generalizing s with
  | nil => simp [fetchBytes, State.setPC]
  | cons b bs ih =>
    obtain ⟨hb, hbs⟩ := codeAt_cons.1 h
    have hrest := ih (s := s.setPC (s.pc + 1#16)) (by simpa using hbs)
    rw [List.length_cons, fetchBytes, fetch8_of_codeByte hb, Res.bind_ok, hrest,
      ← add_one_add_ofNat s.pc bs.length]
    rfl

/-- An opcode of RAM or PRG with its operand bytes is fetched as the instruction they decode to, PC past it and its base
cycles added. -/
theorem fetchInstr_of_codeAt {opcode : Byte} {operands : List Byte} {s : State}
    (hcode : codeAt s s.pc (opcode :: operands) = true) (hcount : operandCount opcode = operands.length) :
    fetchInstr s = .ok (decodeOpcode opcode (operands.getD 0 0#8) (operands.getD 1 0#8))
      { s with
        pc := s.pc + BitVec.ofNat 16 (opcode :: operands).length
        cycles := s.cycles + baseCycles (decodeOpcode opcode 0#8 0#8) } := by
  obtain ⟨hopcode, hoperands⟩ := codeAt_cons.1 hcode
  rw [fetchInstr, fetch8_of_codeByte hopcode, Res.bind_ok, hcount, fetchBytes_of_codeAt (by simpa using hoperands),
    List.length_cons, ← add_one_add_ofNat s.pc operands.length]
  rfl

/-- What is fetched is what the decoder makes of some opcode and operand bytes. -/
theorem fetchInstr_ok {s t : State} {i : Instr} (h : fetchInstr s = .ok i t) :
    ∃ opcode b1 b2, i = decodeOpcode opcode b1 b2 := by
  obtain ⟨opcode, _, -, h⟩ := Res.bind_eq_ok.1 h
  obtain ⟨bs, _, -, h⟩ := Res.bind_eq_ok.1 h
  cases h
  exact ⟨opcode, _, _, rfl⟩

/-- An instruction step whose fetch completes is exec of what was fetched, closed by the PPU's advance. -/
theorem instructionStep_of_fetch {s t : State} {i : Instr} (h : fetchInstr s = .ok i t) :
    instructionStep s = closeStep s.cycles (exec i t) := by
  simp [instructionStep, h]

/-- An instruction step whose fetch faults is that fault (R200). -/
theorem instructionStep_of_fetch_fault {s t : State} {f : Fault} (h : fetchInstr s = .fault f t) :
    instructionStep s = .fault f := by
  simp [instructionStep, h]

/-- Settles O4: bytes of RAM or PRG are fetched as what they decode to, and what is fetched is what runs. -/
theorem stepRunsDecodedInstruction : Obligations.StepRunsDecodedInstruction := by
  intro s hf hn
  rw [step_eq_instructionStep hf hn]
  have hfetched {i : Instr} {t : State} (h : fetchInstr s = .ok i t) :
      i.wf = true ∧ instructionStep s = closeStep s.cycles (exec i t) := by
    obtain ⟨opcode, b1, b2, rfl⟩ := fetchInstr_ok h
    exact ⟨decodeOpcode_wf opcode b1 b2, instructionStep_of_fetch h⟩
  refine ⟨fun bs i hcode hdecode => ?_, fun _ _ => hfetched, fun _ _ => instructionStep_of_fetch_fault, fun _ => rfl⟩
  obtain ⟨opcode, operands, rfl, hcount, rfl⟩ := decode_eq_ok_nil hdecode
  rw [baseCycles_decodeOpcode]
  exact hfetched (fetchInstr_of_codeAt hcode hcount)

end Sys2Proof.Machine
end

section
/-! PROOFS. What an instruction may write, said once over its mnemonic: a property of the state that every bus access, every
added cycle and every write R13 to R20 name for a mnemonic keeps is kept by the mnemonic's rule. The frames of 10_state and
the invariants of a step each apply this to one property. -/

namespace Sys2Proof.Machine

/-! ## What a result leaves behind where it completes -/

section

variable {α β : Type} {I : State → Prop}

/-- The state a result leaves has the property `I`, unless it faults. -/
def Res.Ensures (I : State → Prop) (r : Res α) : Prop := ∀ v t, r = .ok v t → I t

theorem Res.Ensures.ok {v : α} {s : State} (hs : I s) : (Res.ok v s).Ensures I := by
  intro _ _ h
  cases h
  exact hs

theorem Res.Ensures.bind {r : Res α} {k : α → State → Res β} (hr : r.Ensures I)
    (hk : ∀ v s, I s → (k v s).Ensures I) : (r.bind k).Ensures I := by
  intro w t h
  obtain ⟨v, s, hv, hw⟩ := Res.bind_eq_ok.1 h
  exact hk v s (hr v s hv) w t hw

end

/-! ## Writing a register by name (10_state R13 to R16) -/

/-- `r <- v` for any of the four registers. -/
def State.setReg (r : Reg) (v : Byte) (s : State) : State :=
  match r with
  | .a => s.setA v
  | .x => s.setX v
  | .y => s.setY v
  | .sp => s.setSP v

section

variable (s : State) (r : Reg) (v : Byte)

theorem State.reg_setReg (q : Reg) : (s.setReg r v).reg q = if q = r then v else s.reg q := by
  cases r <;> cases q <;> rfl

@[simp] theorem State.setReg_p : (s.setReg r v).p = s.p := by cases r <;> rfl
@[simp] theorem State.setReg_pc : (s.setReg r v).pc = s.pc := by cases r <;> rfl
@[simp] theorem State.setReg_cycles : (s.setReg r v).cycles = s.cycles := by cases r <;> rfl
@[simp] theorem State.setReg_ram : (s.setReg r v).ram = s.ram := by cases r <;> rfl
@[simp] theorem State.setReg_ppu : (s.setReg r v).ppu = s.ppu := by cases r <;> rfl
@[simp] theorem State.setReg_cart : (s.setReg r v).cart = s.cart := by cases r <;> rfl
@[simp] theorem State.setReg_cfg : (s.setReg r v).cfg = s.cfg := by cases r <;> rfl
@[simp] theorem State.setReg_fault : (s.setReg r v).fault = s.fault := by cases r <;> rfl

end

/-! ## The properties a mnemonic keeps -/

/-- `I` is kept by everything `op` may do: bus accesses, added cycles, the registers and flags R13 to R20 name for it, and PC
where it transfers control. Bits 4 and 5 of P are written with all the others, by the byte PLP and RTI install (R23). -/
structure EffectsKeep (op : Op) (I : State → Prop) : Prop where
  read : ∀ {a s}, I s → (busRead a s).Ensures I
  write : ∀ {a v s}, I s → (busWrite a v s).Ensures I
  cycles : ∀ {s} n, I s → I (s.addCycles n)
  reg : ∀ {s} r v, r ∈ regsWritten op → I s → I (s.setReg r v)
  flag : ∀ {s} f v, f ∈ flagsWritten op → f ≠ .brk → f ≠ .unused → I s → I (s.setFlag f v)
  status : ∀ {s} b, (∀ f, f ∈ flagsWritten op) → I s → I (s.setP (statusWithoutBreak b))
  pc : ∀ {s} w, transfersControl op = true → I s → I (s.setPC w)

namespace EffectsKeep

variable {op : Op} {I : State → Prop} (hI : EffectsKeep op I) {s : State}
include hI

/-! Registers and flags. That R13 to R20 name the register or flag for the mnemonic is a side condition `simp` finds. -/

theorem setA {v : Byte} (hs : I s) (h : .a ∈ regsWritten op := by simp [regsWritten]) : I (s.setA v) := hI.reg .a v h hs
theorem setX {v : Byte} (hs : I s) (h : .x ∈ regsWritten op := by simp [regsWritten]) : I (s.setX v) := hI.reg .x v h hs
theorem setY {v : Byte} (hs : I s) (h : .y ∈ regsWritten op := by simp [regsWritten]) : I (s.setY v) := hI.reg .y v h hs
theorem setSP {v : Byte} (hs : I s) (h : .sp ∈ regsWritten op := by simp [regsWritten]) : I (s.setSP v) :=
  hI.reg .sp v h hs

theorem setFlag {f : Flag} {v : Bool} (hs : I s) (h : f ∈ flagsWritten op := by simp [flagsWritten])
    (hb : f ≠ .brk := by decide) (hu : f ≠ .unused := by decide) : I (s.setFlag f v) := hI.flag f v h hb hu hs

theorem setZN {v : Byte} (hs : I s) (hz : .zero ∈ flagsWritten op := by simp [flagsWritten])
    (hn : .negative ∈ flagsWritten op := by simp [flagsWritten]) : I (s.setZN v) := hI.setFlag (hI.setFlag hs hz) hn

/-! The bus, the operand forms, the stack and the vectors. -/

theorem readOperand {src : Source} (hs : I s) : (readOperand src s).Ensures I := by
  cases src with
  | imm v => exact .ok hs
  | mem m => exact hI.read (hI.cycles _ hs)

theorem modifyMemory {f : Byte → Byte} {m : MemOperand} (hs : I s)
    (hz : .zero ∈ flagsWritten op := by simp [flagsWritten])
    (hn : .negative ∈ flagsWritten op := by simp [flagsWritten]) : (modifyMemory f m s).Ensures I :=
  (hI.read hs).bind fun _ _ hs => (hI.write hs).bind fun _ _ hs => .ok (hI.setZN hs hz hn)

theorem shiftOperand {f : Byte → Bool → Shifted} {t : Target} (hs : I s) (ha : t = .acc → .a ∈ regsWritten op)
    (hc : .carry ∈ flagsWritten op := by simp [flagsWritten]) (hz : .zero ∈ flagsWritten op := by simp [flagsWritten])
    (hn : .negative ∈ flagsWritten op := by simp [flagsWritten]) : (shiftOperand f t s).Ensures I := by
  cases t with
  | acc => exact .ok (hI.setZN (hI.setFlag (hI.setA hs (ha rfl)) hc) hz hn)
  | mem m =>
    exact (hI.read hs).bind fun _ _ hs => (hI.write hs).bind fun _ _ hs => .ok (hI.setZN (hI.setFlag hs hc) hz hn)

theorem branchIf {cond : Bool} {off : Byte} (hs : I s) (h : transfersControl op = true) :
    (branchIf cond off s).Ensures I := by
  cases cond with
  | false => exact .ok hs
  | true => exact .ok (hI.pc _ h (hI.cycles _ hs))

theorem indirectTarget {ptr : Addr} (hs : I s) : (indirectTarget ptr s).Ensures I :=
  (hI.read hs).bind fun _ _ hs => (hI.read hs).bind fun _ _ hs => .ok hs

theorem push8 {v : Byte} (hs : I s) (hsp : .sp ∈ regsWritten op := by simp [regsWritten]) : (push8 v s).Ensures I :=
  (hI.write hs).bind fun _ _ hs => .ok (hI.setSP hs hsp)

theorem pull8 (hs : I s) (hsp : .sp ∈ regsWritten op := by simp [regsWritten]) : (pull8 s).Ensures I :=
  hI.read (hI.setSP hs hsp)

theorem push16 {w : Addr} (hs : I s) (hsp : .sp ∈ regsWritten op := by simp [regsWritten]) : (push16 w s).Ensures I :=
  (hI.push8 hs hsp).bind fun _ _ hs => hI.push8 hs hsp

theorem pull16 (hs : I s) (hsp : .sp ∈ regsWritten op := by simp [regsWritten]) : (pull16 s).Ensures I :=
  (hI.pull8 hs hsp).bind fun _ _ hs => (hI.pull8 hs hsp).bind fun _ _ hs => .ok hs

theorem readVector {a : Addr} (hs : I s) : (readVector a s).Ensures I :=
  (hI.read hs).bind fun _ _ hs => (hI.read hs).bind fun _ _ hs => .ok hs

end EffectsKeep

/-- The entry sequence (R216) keeps what BRK keeps and the PPU's advance keeps. -/
theorem takeInterrupt_ensures {I : State → Prop} (hI : EffectsKeep .brk I) {ret : Addr} {status : Byte} {vector : Addr}
    {dots : Nat} (hdots : ∀ s, I s → I (s.advancePpu dots)) {s : State} (hs : I s) :
    (takeInterrupt ret status vector dots s).Ensures I :=
  (hI.push16 hs).bind fun _ _ hs =>
  (hI.push8 hs).bind fun _ _ hs =>
  (hI.readVector (hdots _ (hI.setFlag hs))).bind fun _ _ hs => .ok (hI.pc _ rfl hs)

/-- The rule of a mnemonic keeps what everything the mnemonic may do keeps (R13 to R20, R72). -/
theorem EffectsKeep.runOp {op : Op} {I : State → Prop} (hI : EffectsKeep op I) {s : State} (hs : I s) :
    (runOp op s).Ensures I := by
  have every (f : Flag) : f ∈ flagsWritten .plp := by cases f <;> decide
  cases op with
  | lda | and | ora | eor => exact (hI.readOperand hs).bind fun _ _ hs => .ok (hI.setZN (hI.setA hs))
  | ldx => exact (hI.readOperand hs).bind fun _ _ hs => .ok (hI.setZN (hI.setX hs))
  | ldy => exact (hI.readOperand hs).bind fun _ _ hs => .ok (hI.setZN (hI.setY hs))
  | adc | sbc =>
    exact (hI.readOperand hs).bind fun _ _ hs => .ok (hI.setZN (hI.setFlag (hI.setFlag (hI.setA hs))))
  | cmp | cpx | cpy | bit =>
    exact (hI.readOperand hs).bind fun _ _ hs => .ok (hI.setFlag (hI.setFlag (hI.setFlag hs)))
  | sta | stx | sty => exact hI.write hs
  | inc | dec => exact hI.modifyMemory hs
  | asl t | lsr t | rol t | ror t => exact hI.shiftOperand hs (by rintro rfl; simp [regsWritten])
  | txa | tya => exact .ok (hI.setZN (hI.setA hs))
  | tax | tsx | inx | dex => exact .ok (hI.setZN (hI.setX hs))
  | tay | iny | dey => exact .ok (hI.setZN (hI.setY hs))
  | txs => exact .ok (hI.setSP hs)
  | clc | sec | cli | sei | cld | sed | clv => exact .ok (hI.setFlag hs)
  | nop => exact .ok hs
  | bcc | bcs | beq | bne | bmi | bpl | bvc | bvs => exact hI.branchIf hs rfl
  | jmp j =>
    cases j with
    | abs w => exact .ok (hI.pc _ rfl hs)
    | ind ptr => exact (hI.indirectTarget hs).bind fun _ _ hs => .ok (hI.pc _ rfl hs)
  | jsr => exact (hI.push16 hs).bind fun _ _ hs => .ok (hI.pc _ rfl hs)
  | rts => exact (hI.pull16 hs).bind fun _ _ hs => .ok (hI.pc _ rfl hs)
  | pha | php => exact hI.push8 hs
  | pla => exact (hI.pull8 hs).bind fun _ _ hs => .ok (hI.setZN (hI.setA hs))
  | plp => exact (hI.pull8 hs).bind fun _ _ hs => .ok (hI.status _ every hs)
  | brk => exact takeInterrupt_ensures hI (dots := 0) (fun _ hs => hs) hs
  | rti =>
    exact (hI.pull8 hs).bind fun _ _ hs =>
      (hI.pull16 (hI.status _ every hs)).bind fun _ _ hs => .ok (hI.pc _ rfl hs)
  | illegal => exact nofun

/-- An instruction that completes keeps what everything its mnemonic may do keeps. -/
theorem exec_keeps {i : Instr} {I : State → Prop} (hI : EffectsKeep (opOf i) I) {s t : State} (h : exec i s = .next t)
    (hs : I s) : I t := hI.runOp hs () t (exec_eq_next.1 h)

/-- A step keeps what every mnemonic, the fetch's writes of PC, the PPU's advance and the clearing of the pending interrupt
keep (R6, R72, R210). -/
theorem step_keeps {I : State → Prop} (hI : ∀ op : Op, EffectsKeep op I) (hadvance : ∀ s n, I s → I (s.advancePpu n))
    (hclear : ∀ s, I s → I { s with ppu := { s.ppu with nmiPending := false } }) {s t : State} (h : step s = .next t)
    (hs : I s) : I t := by
  obtain ⟨-, ⟨-, hnmi⟩ | ⟨-, i, u, v, hfetch, hrun, rfl⟩⟩ := step_next h
  · exact takeInterrupt_ensures (hI .brk) (hadvance · _) (hclear s hs) () t hnmi
  · have hu : I u := fetchInstr_keeps (fun _ _ _ _ h hs => (hI .nop).read hs _ _ h) (fun _ w => (hI .rts).pc w rfl)
      (fun _ => (hI .nop).cycles) hfetch hs
    exact hadvance _ _ ((hI (opOf i)).runOp hu () v hrun)

end Sys2Proof.Machine
end

section
/-! PROOFS. The frames of 10_state and the invariants of a step: each is one property of the state that the effects of every
mnemonic keep. -/

namespace Sys2Proof.Machine

/-! ## Frames of exec -/

/-- A property that says nothing of RAM, the PPU and the cycle counter is kept by the bus. -/
theorem EffectsKeep.of_registers {op : Op} {I : State → Prop}
    (hbus : ∀ s ram ppu cycles, I s → I { s with ram := ram, ppu := ppu, cycles := cycles })
    (hreg : ∀ s r v, r ∈ regsWritten op → I s → I (s.setReg r v))
    (hflag : ∀ s f v, f ∈ flagsWritten op → f ≠ .brk → f ≠ .unused → I s → I (s.setFlag f v))
    (hstatus : ∀ s b, (∀ f, f ∈ flagsWritten op) → I s → I (s.setP (statusWithoutBreak b)))
    (hpc : ∀ s w, transfersControl op = true → I s → I (s.setPC w)) : EffectsKeep op I where
  read hs _ t h := by
    rw [busRead_ok_ppu h]
    exact hbus _ _ t.ppu _ hs
  write hs _ t h := by
    rw [busWrite_ok_parts h]
    exact hbus _ t.ram t.ppu t.cycles hs
  cycles _ hs := hbus _ _ _ _ hs
  reg := hreg _
  flag := hflag _
  status := hstatus _
  pc := hpc _

/-- The registers A, X, Y and SP lie outside every other field. -/
theorem State.reg_update (s : State) (r : Reg) (pc : Addr) (p : Byte) (cycles : Nat) (ram : Memory) (ppu : Ppu) :
    { s with pc := pc, p := p, cycles := cycles, ram := ram, ppu := ppu }.reg r = s.reg r := by
  cases r <;> rfl

/-- Settles O42: every other register keeps its value through each effect of the mnemonic. -/
theorem registerFrame : Obligations.RegisterFrame := by
  intro i s t r h hr
  have hkeep : EffectsKeep (opOf i) (fun u => u.reg r = s.reg r) := .of_registers
    (hbus := fun u _ _ _ hu => (u.reg_update r ..).trans hu)
    (hreg := fun _ q _ hq hu => by
      have hne : r ≠ q := fun e => hr (e ▸ hq)
      rw [State.reg_setReg, if_neg hne, hu])
    (hflag := fun u _ _ _ _ _ hu => (u.reg_update r ..).trans hu)
    (hstatus := fun u _ _ hu => (u.reg_update r ..).trans hu)
    (hpc := fun u _ _ hu => (u.reg_update r ..).trans hu)
  exact exec_keeps hkeep h rfl

/-- Settles O43: only a mnemonic that writes all eight flags installs a whole status byte. -/
theorem flagFrame : Obligations.FlagFrame := by
  intro i s t f h hf
  have hkeep : EffectsKeep (opOf i) (fun u => u.flag f = s.flag f) := .of_registers
    (hbus := fun _ _ _ _ hu => hu)
    (hreg := fun _ _ _ _ hu => by simpa [State.flag] using hu)
    (hflag := fun _ g _ hg _ _ hu => by
      have hne : f ≠ g := fun e => hf (e ▸ hg)
      rw [State.flag_setFlag, if_neg hne, hu])
    (hstatus := fun _ _ hall _ => absurd (hall f) hf)
    (hpc := fun _ _ _ hu => hu)
  exact exec_keeps hkeep h rfl

/-- `u` has the cartridge, the parameters and the fault record of `s` (R29, R34, R35). -/
def sameConfiguration (s u : State) : Prop := u.cart = s.cart ∧ u.cfg = s.cfg ∧ u.fault = s.fault

/-- No effect of a mnemonic reaches the cartridge, the parameters or the fault record. -/
theorem effectsKeep_sameConfiguration (op : Op) (s : State) : EffectsKeep op (sameConfiguration s) := .of_registers
  (hbus := fun _ _ _ _ hu => hu)
  (hreg := fun _ _ _ _ hu => by simpa [sameConfiguration] using hu)
  (hflag := fun _ _ _ _ _ _ hu => hu)
  (hstatus := fun _ _ _ hu => hu)
  (hpc := fun _ _ _ hu => hu)

/-- Settles O44: PC has no effect of a mnemonic that transfers no control, the configuration of no mnemonic. -/
theorem pcAndConfigurationFrame : Obligations.PcAndConfigurationFrame := by
  intro i s t h
  refine ⟨fun hi => ?_, exec_keeps (effectsKeep_sameConfiguration _ s) h ⟨rfl, rfl, rfl⟩⟩
  have hkeep : EffectsKeep (opOf i) (fun u => u.pc = s.pc) := .of_registers
    (hbus := fun _ _ _ _ hu => hu)
    (hreg := fun _ _ _ _ hu => by simpa using hu)
    (hflag := fun _ _ _ _ _ _ hu => hu)
    (hstatus := fun _ _ _ hu => hu)
    (hpc := fun _ _ htransfer _ => by simp [hi] at htransfer)
  exact exec_keeps hkeep h rfl

/-! ## Invariants of a step -/

/-- The effects of every mnemonic keep the memories canonical and the PPU in range: only bus writes reach them. -/
theorem effectsKeep_wf (op : Op) : EffectsKeep op (fun s => s.wf = true) where
  read hs _ _ h := busRead_wf h hs
  write hs _ _ h := busWrite_wf h hs
  cycles _ hs := hs
  reg _ _ _ hs := by simpa [State.wf] using hs
  flag _ _ _ _ _ hs := hs
  status _ _ hs := hs
  pc _ _ hs := hs

/-- The PPU's advance keeps the invariant (R230). -/
theorem State.advancePpu_wf (s : State) (n : Nat) (hs : s.wf = true) : (s.advancePpu n).wf = true := by
  obtain ⟨hram, hppu, hcart⟩ := s.wf_iff.1 hs
  exact (State.wf_iff _).2 ⟨hram, ppuAdvance_wf n _ hppu, hcart⟩

/-- Settles O52: the effects of every mnemonic, the PPU's advance and the clearing of the pending interrupt keep it. -/
theorem stepKeepsStateWellFormed : Obligations.StepKeepsStateWellFormed :=
  fun _ _ hs h => step_keeps effectsKeep_wf State.advancePpu_wf (fun _ hs => hs) h hs

theorem breakClearUnusedSet_iff (s : State) :
    breakClearUnusedSet s = true ↔ s.flag .brk = false ∧ s.flag .unused = true := by
  simp [breakClearUnusedSet]

/-- Bits 4 and 5 of P are written by the byte PLP and RTI install alone, which has `B = 0` and `U = 1` (R23, R26). -/
theorem effectsKeep_breakClearUnusedSet (op : Op) : EffectsKeep op (fun s => breakClearUnusedSet s = true) := .of_registers
  (hbus := fun _ _ _ _ hs => hs)
  (hreg := fun _ _ _ _ hs => by simpa [breakClearUnusedSet, State.flag] using hs)
  (hflag := fun _ _ _ _ hb hu hs => by simpa [breakClearUnusedSet_iff, hb.symm, hu.symm] using hs)
  (hstatus := fun _ _ _ _ => by simp [breakClearUnusedSet_iff, State.flag, flagOf_statusWithoutBreak])
  (hpc := fun _ _ _ hs => hs)

/-- Settles O53: NMI service writes no flag but I, and the effects of every mnemonic keep bits 4 and 5 so. -/
theorem stepKeepsBreakClearUnusedSet : Obligations.StepKeepsBreakClearUnusedSet :=
  fun _ _ hs h => step_keeps effectsKeep_breakClearUnusedSet (fun _ _ hs => hs) (fun _ hs => hs) h hs

/-- A bus write adds cycles or leaves them: only an OAM-DMA adds any (R50). -/
theorem busWrite_cycles_le {a : Addr} {v : Byte} {s t : State} {u : Unit} (h : busWrite a v s = .ok u t) :
    s.cycles ≤ t.cycles := by
  rcases busWrite_ok h with ⟨-, rfl⟩ | ⟨-, -, hport⟩ | ⟨-, hdma⟩ | ⟨-, -, -, -, rfl⟩
  · exact Nat.le_refl _
  · rcases ppuPortWrite_ok hport with ⟨-, rfl⟩ | ⟨-, rfl⟩ | ⟨-, rfl⟩ | ⟨-, rfl⟩ | ⟨-, rfl⟩ | ⟨-, rfl⟩ | ⟨-, -, rfl⟩ <;>
      exact Nat.le_refl _
  · rw [oamDma_ok hdma]
    exact Nat.le_add_right _ _
  · exact Nat.le_refl _

/-- No effect of a mnemonic takes cycles away (R19). -/
theorem effectsKeep_cycles_le (op : Op) (n : Nat) : EffectsKeep op (fun s => n ≤ s.cycles) where
  read hs _ _ h := by rw [busRead_ok_ppu h]; exact hs
  write hs _ _ h := Nat.le_trans hs (busWrite_cycles_le h)
  cycles _ hs := Nat.le_add_right_of_le hs
  reg _ _ _ hs := by simpa using hs
  flag _ _ _ _ _ hs := hs
  status _ _ hs := hs
  pc _ _ hs := hs

/-- Settles O54: a step that completes started with no fault recorded, and keeps the configuration with it. -/
theorem stepKeepsCartridgeAndCountsUp : Obligations.StepKeepsCartridgeAndCountsUp := by
  intro s t h
  obtain ⟨hcart, hcfg, hfault⟩ : sameConfiguration s t :=
    step_keeps (effectsKeep_sameConfiguration · s) (fun _ _ hu => hu) (fun _ hu => hu) h ⟨rfl, rfl, rfl⟩
  have hcycles : s.cycles ≤ t.cycles :=
    step_keeps (effectsKeep_cycles_le · s.cycles) (fun _ _ hu => hu) (fun _ hu => hu) h (Nat.le_refl _)
  exact ⟨hcart, hcfg, hfault.trans (step_next h).1, hcycles⟩

/-! ## Reset (R33, R262) -/

/-- Settles O10: every value stands in the reset state, and with no fault and no interrupt the first step is an
instruction. -/
theorem resetDefaults : Obligations.ResetDefaults := by
  intro c g s
  have hstep : step s = instructionStep s := step_eq_instructionStep rfl rfl
  have hmemories (k : Nat) : s.ram.read k = 0#8 ∧ s.ppu.vram.read k = 0#8 ∧ s.ppu.pal.read k = 0#8
      ∧ s.ppu.oam.read k = 0#8 := ⟨rfl, rfl, rfl, rfl⟩
  exact ⟨rfl, rfl, rfl, rfl, rfl, rfl, hmemories, rfl, rfl, rfl, rfl, rfl, rfl, rfl, rfl, rfl, rfl, rfl, rfl, rfl, rfl, rfl,
    hstep⟩

/-- Reset with the default values meets the invariant where the cartridge does. -/
theorem resetWith_wf {c : Cartridge} (g : Config) (hc : c.wf = true) : (State.resetWith c g).wf = true := by
  have hppu : Ppu.reset.wf = true := by decide
  exact (State.wf_iff _).2 ⟨Memory.wf_nil _, hppu, hc⟩

/-- Reset with the default values leaves `B = 0` and `U = 1`, around any cartridge (R22, R26). -/
theorem resetWith_breakClearUnusedSet (c : Cartridge) (g : Config) :
    breakClearUnusedSet (State.resetWith c g) = true :=
  (breakClearUnusedSet_iff _).2 (show flagOf .brk resetP = false ∧ flagOf .unused resetP = true by decide)

/-- Settles O11: the model's own reset state is the reset around the blank cartridge, which is well-formed. -/
theorem resetStateIsWellFormed : Obligations.ResetStateIsWellFormed := by
  have hblank : blankCartridge.wf = true := by decide
  exact ⟨fun c g hc => ⟨resetWith_wf g hc, resetWith_breakClearUnusedSet c g⟩,
    resetWith_wf defaultConfig hblank, resetWith_breakClearUnusedSet blankCartridge defaultConfig⟩

end Sys2Proof.Machine
end

section
/-! PROOFS. Two runs that differ in InterruptDisable or Decimal alone (10_state R24, R25): only PHP and BRK read those flags,
so every other mnemonic's rule, run from both states, stays in step. -/

namespace Sys2Proof.Machine

/-! ## Two states, two results -/

/-- Two states that differ in one flag at most are one state with two status bytes. -/
theorem agreeBut.exists_setP {f : Flag} {s t : State} (h : agreeBut f s t) : ∃ p, t = s.setP p := ⟨t.p, h.1⟩

/-- Two results that give the same value or the same fault, with states that differ in one flag at most. -/
inductive Res.AgreeBut {α : Type} (f : Flag) : Res α → Res α → Prop
  | ok {v : α} {s t : State} (h : agreeBut f s t) : AgreeBut f (.ok v s) (.ok v t)
  | fault {e : Fault} {s t : State} : AgreeBut f (.fault e s) (.fault e t)

theorem Res.AgreeBut.outcome {α : Type} {f : Flag} {q r : Res α} (h : q.AgreeBut f r) :
    outcomesAgreeBut f q.outcome r.outcome := by
  cases h with
  | ok h => exact h
  | fault => rfl

/-- Chaining: the second part is run from two states that differ in their status bytes. -/
theorem Res.AgreeBut.bind {α β : Type} {f : Flag} {q r : Res α} {k l : α → State → Res β} (h : q.AgreeBut f r)
    (hk : ∀ v s p, agreeBut f s (s.setP p) → (k v s).AgreeBut f (l v (s.setP p))) : (q.bind k).AgreeBut f (r.bind l) := by
  cases h with
  | ok h =>
    obtain ⟨p, rfl⟩ := h.exists_setP
    exact hk _ _ p h
  | fault => exact .fault

section

variable {f : Flag} {s : State} {p : Byte}

/-- A flag written in both states, whichever it is. -/
theorem agreeBut.setFlag {t : State} (h : agreeBut f s t) (g : Flag) (v : Bool) :
    agreeBut f (s.setFlag g v) (t.setFlag g v) := by
  obtain ⟨q, rfl⟩ := h.exists_setP
  refine ⟨rfl, fun g' hg' => ?_⟩
  rw [State.flag_setFlag, State.flag_setFlag, h.2 g' hg']

theorem agreeBut.setZN {t : State} (h : agreeBut f s t) (v : Byte) : agreeBut f (s.setZN v) (t.setZN v) :=
  (h.setFlag _ _).setFlag _ _

/-- A register written in both states. -/
theorem agreeBut.setReg {t : State} (h : agreeBut f s t) (r : Reg) (v : Byte) : agreeBut f (s.setReg r v) (t.setReg r v) := by
  obtain ⟨q, rfl⟩ := h.exists_setP
  cases r <;> exact ⟨rfl, h.2⟩

/-! ## The shared operations

Two states are given as `s` and `s.setP p`. An update that neither reads nor writes P keeps their agreement by `⟨rfl, h.2⟩`:
it commutes with `setP`, and the flags are those of before. -/

@[simp] theorem effectiveAddress_setP (m : MemOperand) (s : State) (p : Byte) :
    effectiveAddress m (s.setP p) = effectiveAddress m s := by
  cases m <;> rfl

@[simp] theorem baseAddress_setP (m : MemOperand) (s : State) (p : Byte) :
    baseAddress m (s.setP p) = baseAddress m s := by
  cases m <;> rfl

variable (h : agreeBut f s (s.setP p))
include h

theorem busRead_agreeBut (a : Addr) : (busRead a s).AgreeBut f (busRead a (s.setP p)) := by
  unfold busRead
  split_ifs
  · exact .ok h
  · unfold ppuPortRead
    split_ifs
    · exact .ok ⟨rfl, h.2⟩
    · exact .ok h
    · exact .ok ⟨rfl, h.2⟩
    · exact .fault
  · exact .ok h
  · unfold outOfRangeRead
    rw [State.setP_cfg]
    cases s.cfg.oorPolicy with
    | fault => exact .fault
    | degrade => exact .ok h

theorem oamCopy_agreeBut (base : Addr) (is : List Nat) :
    (oamCopy base is s).AgreeBut f (oamCopy base is (s.setP p)) := by
  induction is generalizing s p with
  | nil => exact .ok h
  | cons i is ih => exact (busRead_agreeBut h _).bind fun _ s p h => ih (s := { s with ppu := _ }) (p := p) ⟨rfl, h.2⟩

theorem ppuPortWrite_agreeBut (port : BitVec 3) (v : Byte) :
    (ppuPortWrite port v s).AgreeBut f (ppuPortWrite port v (s.setP p)) := by
  unfold ppuPortWrite
  rw [State.setP_ppu]
  have hok (ppu : Ppu) : (Res.ok () { s with ppu := ppu }).AgreeBut f (.ok () { s.setP p with ppu := ppu }) :=
    .ok ⟨rfl, h.2⟩
  split_ifs
  exacts [hok _, hok _, .fault, hok _, hok _, hok _, hok _, .fault, hok _]

theorem busWrite_agreeBut (a : Addr) (v : Byte) : (busWrite a v s).AgreeBut f (busWrite a v (s.setP p)) := by
  unfold busWrite
  split_ifs
  · exact .ok ⟨rfl, h.2⟩
  · exact ppuPortWrite_agreeBut h _ v
  · exact (oamCopy_agreeBut h _ _).bind fun _ _ _ h => .ok ⟨rfl, h.2⟩
  · exact .fault
  · unfold outOfRangeWrite
    rw [State.setP_cfg]
    cases s.cfg.oorPolicy with
    | fault => exact .fault
    | degrade => exact .ok h

theorem readOperand_agreeBut (src : Source) : (readOperand src s).AgreeBut f (readOperand src (s.setP p)) := by
  cases src with
  | imm v => exact .ok h
  | mem m =>
    simp only [readOperand, effectiveAddress_setP, baseAddress_setP]
    exact busRead_agreeBut (s := s.addCycles _) ⟨rfl, h.2⟩ _

theorem storeOperand_agreeBut (v : Byte) (m : MemOperand) :
    (storeOperand v m s).AgreeBut f (storeOperand v m (s.setP p)) := by
  simp only [storeOperand, effectiveAddress_setP]
  exact busWrite_agreeBut h _ v

theorem modifyMemory_agreeBut (g : Byte → Byte) (m : MemOperand) :
    (modifyMemory g m s).AgreeBut f (modifyMemory g m (s.setP p)) := by
  simp only [modifyMemory, effectiveAddress_setP]
  exact (busRead_agreeBut h _).bind fun _ _ _ h => (busWrite_agreeBut h _ _).bind fun _ _ _ h => .ok (h.setZN _)

theorem shiftOperand_agreeBut (g : Byte → Bool → Shifted) (t : Target) (hf : f ≠ .carry) :
    (shiftOperand g t s).AgreeBut f (shiftOperand g t (s.setP p)) := by
  cases t with
  | acc =>
    simp only [shiftOperand, h.2 _ hf.symm]
    exact .ok (((h.setReg .a _).setFlag _ _).setZN _)
  | mem m =>
    simp only [shiftOperand, effectiveAddress_setP]
    refine (busRead_agreeBut h _).bind fun v s p h => ?_
    simp only [h.2 _ hf.symm]
    exact (busWrite_agreeBut h _ _).bind fun _ _ _ h => .ok ((h.setFlag _ _).setZN _)

theorem branchIf_agreeBut (cond : Bool) (off : Byte) : (branchIf cond off s).AgreeBut f (branchIf cond off (s.setP p)) := by
  cases cond with
  | false => exact .ok h
  | true => exact .ok ⟨rfl, h.2⟩

theorem indirectTarget_agreeBut (ptr : Addr) : (indirectTarget ptr s).AgreeBut f (indirectTarget ptr (s.setP p)) :=
  (busRead_agreeBut h _).bind fun _ _ _ h => (busRead_agreeBut h _).bind fun _ _ _ h => .ok h

theorem push8_agreeBut (v : Byte) : (push8 v s).AgreeBut f (push8 v (s.setP p)) :=
  (busWrite_agreeBut h _ v).bind fun _ _ _ h => .ok ⟨rfl, h.2⟩

theorem push16_agreeBut (w : Addr) : (push16 w s).AgreeBut f (push16 w (s.setP p)) :=
  (push8_agreeBut h _).bind fun _ _ _ h => push8_agreeBut h _

theorem pull8_agreeBut : (pull8 s).AgreeBut f (pull8 (s.setP p)) :=
  busRead_agreeBut (s := s.setSP (s.sp + 1#8)) ⟨rfl, h.2⟩ _

theorem pull16_agreeBut : (pull16 s).AgreeBut f (pull16 (s.setP p)) :=
  (pull8_agreeBut h).bind fun _ _ _ h => (pull8_agreeBut h).bind fun _ _ _ h => .ok h

theorem addToA_agreeBut (m : Byte) (hf : f ≠ .carry) : agreeBut f (s.addToA m) ((s.setP p).addToA m) := by
  simp only [State.addToA, h.2 _ hf.symm]
  exact (((h.setReg .a _).setFlag _ _).setFlag _ _).setZN _

theorem compare_agreeBut (reg m : Byte) : agreeBut f (s.compare reg m) ((s.setP p).compare reg m) :=
  ((h.setFlag _ _).setFlag _ _).setFlag _ _

theorem bitTest_agreeBut (m : Byte) : agreeBut f (s.bitTest m) ((s.setP p).bitTest m) :=
  ((h.setFlag _ _).setFlag _ _).setFlag _ _

end

/-- The rule of a mnemonic other than PHP and BRK, run from two states that differ in I or D alone. -/
theorem runOp_agreeBut {f : Flag} (hf : f = .interruptDisable ∨ f = .decimal) {op : Op} (hphp : op ≠ .php) (hbrk : op ≠ .brk)
    {s : State} {p : Byte} (h : agreeBut f s (s.setP p)) : (runOp op s).AgreeBut f (runOp op (s.setP p)) := by
  have hflag (g : Flag) (hi : g ≠ .interruptDisable) (hd : g ≠ .decimal) : (s.setP p).flag g = s.flag g :=
    h.2 g (by rcases hf with rfl | rfl <;> assumption)
  have hcarry : f ≠ .carry := by rcases hf with rfl | rfl <;> decide
  cases op with
  | lda | and | ora | eor => exact (readOperand_agreeBut h _).bind fun _ _ _ h => .ok ((h.setReg .a _).setZN _)
  | ldx => exact (readOperand_agreeBut h _).bind fun _ _ _ h => .ok ((h.setReg .x _).setZN _)
  | ldy => exact (readOperand_agreeBut h _).bind fun _ _ _ h => .ok ((h.setReg .y _).setZN _)
  | adc | sbc => exact (readOperand_agreeBut h _).bind fun _ _ _ h => .ok (addToA_agreeBut h _ hcarry)
  | cmp | cpx | cpy => exact (readOperand_agreeBut h _).bind fun _ _ _ h => .ok (compare_agreeBut h _ _)
  | bit => exact (readOperand_agreeBut h _).bind fun _ _ _ h => .ok (bitTest_agreeBut h _)
  | sta | stx | sty => exact storeOperand_agreeBut h _ _
  | inc | dec => exact modifyMemory_agreeBut h _ _
  | asl | lsr | rol | ror => exact shiftOperand_agreeBut h _ _ hcarry
  | txa | tya => exact .ok ((h.setReg .a _).setZN _)
  | tax | tsx | inx | dex => exact .ok ((h.setReg .x _).setZN _)
  | tay | iny | dey => exact .ok ((h.setReg .y _).setZN _)
  | txs => exact .ok (h.setReg .sp _)
  | clc | sec | cli | sei | cld | sed | clv => exact .ok (h.setFlag _ _)
  | nop => exact .ok h
  | bcc | bcs =>
    simp only [runOp, runBcc, runBcs, hflag .carry (by decide) (by decide)]
    exact branchIf_agreeBut h _ _
  | beq | bne =>
    simp only [runOp, runBeq, runBne, hflag .zero (by decide) (by decide)]
    exact branchIf_agreeBut h _ _
  | bmi | bpl =>
    simp only [runOp, runBmi, runBpl, hflag .negative (by decide) (by decide)]
    exact branchIf_agreeBut h _ _
  | bvc | bvs =>
    simp only [runOp, runBvc, runBvs, hflag .overflow (by decide) (by decide)]
    exact branchIf_agreeBut h _ _
  | jmp j =>
    cases j with
    | abs w => exact .ok ⟨rfl, h.2⟩
    | ind ptr => exact (indirectTarget_agreeBut h _).bind fun _ _ _ h => .ok ⟨rfl, h.2⟩
  | jsr => exact (push16_agreeBut h _).bind fun _ _ _ h => .ok ⟨rfl, h.2⟩
  | rts => exact (pull16_agreeBut h).bind fun _ _ _ h => .ok ⟨rfl, h.2⟩
  | pha => exact push8_agreeBut h _
  | php => exact absurd rfl hphp
  | pla => exact (pull8_agreeBut h).bind fun _ _ _ h => .ok ((h.setReg .a _).setZN _)
  | plp => exact (pull8_agreeBut h).bind fun _ _ _ _ => .ok ⟨rfl, fun _ _ => rfl⟩
  | brk => exact absurd rfl hbrk
  | rti =>
    exact (pull8_agreeBut h).bind fun b s p _ =>
      (pull16_agreeBut (s := s.setP (statusWithoutBreak b)) (p := statusWithoutBreak b) ⟨rfl, fun _ _ => rfl⟩).bind
        fun _ _ _ h => .ok ⟨rfl, h.2⟩
  | illegal => exact .fault

/-- Settles O51: the rules of the mnemonics run in step from the two states, and exec is those rules. -/
theorem interruptAndDecimalFlagsHaveNoEffect : Obligations.InterruptAndDecimalFlagsHaveNoEffect := by
  intro i f s t hf hphp hbrk h
  obtain ⟨p, rfl⟩ := h.exists_setP
  rw [exec_eq_runOp, exec_eq_runOp]
  exact (runOp_agreeBut hf hphp hbrk h).outcome

end Sys2Proof.Machine
end

section
/-! PROOFS. The bus (20_memory R44 to R50): the memory map, what an OAM-DMA copies, and where a write
completes. -/

namespace Sys2Proof.Machine

/-! ## The memory map -/

/-- The regions of the address space, as the bus tells them apart for a write (R40, R45). -/
theorem addr_cases (a : Addr) : a.toNat ≤ 0x1FFF ∨ (0x2000 ≤ a.toNat ∧ a.toNat ≤ 0x3FFF) ∨ a = 0x4014#16
    ∨ (0x4000 ≤ a.toNat ∧ a.toNat ≤ 0x7FFF ∧ a ≠ 0x4014#16) ∨ 0x8000 ≤ a.toNat := by
  by_cases h : a = 0x4014#16
  · exact .inr (.inr (.inl h))
  · simp only [h, ne_eq, not_false_eq_true, and_true]
    omega

theorem outOfRangeRead_fault {s : State} (a : Addr) (h : s.cfg.oorPolicy = .fault) :
    outOfRangeRead a s = .fault (.outOfRangeAccess .read a) s := by
  simp [outOfRangeRead, h]

theorem outOfRangeRead_degrade {s : State} (a : Addr) (h : s.cfg.oorPolicy = .degrade) :
    outOfRangeRead a s = .ok 0#8 s := by
  simp [outOfRangeRead, h]

theorem outOfRangeWrite_fault {s : State} (a : Addr) (h : s.cfg.oorPolicy = .fault) :
    outOfRangeWrite a s = .fault (.outOfRangeAccess .write a) s := by
  simp [outOfRangeWrite, h]

theorem outOfRangeWrite_degrade {s : State} (a : Addr) (h : s.cfg.oorPolicy = .degrade) :
    outOfRangeWrite a s = .ok () s := by
  simp [outOfRangeWrite, h]

/-- The port of a bus address is its low three bits (R47). -/
theorem portOf_of_mod {a : Addr} {k : Nat} (h : a.toNat % 8 = k) : portOf a = BitVec.ofNat 3 k := by
  apply BitVec.eq_of_toNat_eq
  simp [portOf, ← h]

/-- Settles O13: the cell written is the address modulo $0800, and a read of RAM changes nothing. -/
theorem ramIsMirrored : Obligations.RamIsMirrored := by
  intro a b v s hw ha hb
  refine ⟨s.writeRam (ramIndex a) v, busWrite_ram v s ha, ?_, rfl⟩
  rw [busRead_ram _ hb, State.writeRam_ram]
  change Res.ok ((s.ram.write (ramIndex a) v).read (ramIndex b)) _
    = .ok (if ramIndex b = ramIndex a then v else s.ram.read (ramIndex b)) _
  split
  case isTrue h => rw [h, Memory.read_write_same hw]
  case isFalse h => rw [Memory.read_write_of_ne _ _ h]

/-- A 32KB image fills the PRG window (R48). -/
theorem prgOffset_k32 {a : Addr} (h : 0x8000 ≤ a.toNat) : prgOffset .k32 a = a.toNat - 0x8000 := by
  have := a.isLt
  exact Nat.mod_eq_of_lt (by simp only [prgBytes]; omega)

/-- Settles O14: each region by its own law of the bus. -/
theorem prgAndOutOfRangeAccesses : Obligations.PrgAndOutOfRangeAccesses := by
  intro a v s
  refine ⟨fun ha hsize => ?_, fun ha hsize => ?_, busWrite_prg v s, fun h1 h2 hp => ⟨?_, fun ha => ?_⟩,
    fun h1 h2 hp => ⟨?_, fun ha => ?_⟩⟩
  · rw [busRead_prg s ha, prgRead, hsize]
    rfl
  · rw [busRead_prg s ha, prgRead, hsize, prgOffset_k32 ha]
  · rw [busRead_outOfRange s h1 h2, outOfRangeRead_fault a hp]
  · rw [busWrite_outOfRange v s h1 h2 ha, outOfRangeWrite_fault a hp]
  · rw [busRead_outOfRange s h1 h2, outOfRangeRead_degrade a hp]
  · rw [busWrite_outOfRange v s h1 h2 ha, outOfRangeWrite_degrade a hp]

/-! ## OAM-DMA (R50) -/

/-- The state with another OAM. -/
def State.withOam (oam : Memory) (s : State) : State := { s with ppu := { s.ppu with oam := oam } }

/-- The addresses of a source page, as the copy loop counts them. -/
theorem word_add_index (v : Byte) {i : Nat} (hi : i < 256) :
    word 0#8 v + BitVec.ofNat 16 i = word (BitVec.ofNat 8 i) v := by
  apply BitVec.eq_of_toNat_eq
  have := v.isLt
  simp only [BitVec.toNat_add, word_toNat, BitVec.toNat_ofNat]
  omega

/-- Where an OAM-DMA completes: from a page of RAM, of PRG, or of the out-of-range addresses under `degrade`. -/
theorem dmaReadable_iff (v : Byte) (s : State) : dmaReadable v s = true ↔
    v.toNat ≤ 0x1F ∨ 0x80 ≤ v.toNat ∨ (0x40 ≤ v.toNat ∧ v.toNat ≤ 0x7F ∧ s.cfg.oorPolicy = .degrade) := by
  unfold dmaReadable
  split
  · simp [*]
  · split
    · simp only [Bool.false_eq_true, false_iff]; omega
    · split
      · simp [*]
      · simp only [beq_iff_eq]
        constructor
        · exact fun h => .inr (.inr ⟨by omega, by omega, h⟩)
        · rintro (h | h | ⟨-, -, h⟩)
          · omega
          · omega
          · exact h

/-- A readable page reads as 256 bytes, whatever OAM holds, and reading it changes nothing. -/
theorem page_reads_of_dmaReadable {v : Byte} {s : State} (h : dmaReadable v s = true) :
    ∃ f : Byte → Byte, ∀ i oam, busRead (word i v) (s.withOam oam) = .ok (f i) (s.withOam oam) := by
  have hnat (i : Byte) : (word i v).toNat = v.toNat * 256 + i.toNat := word_toNat i v
  rcases (dmaReadable_iff v s).1 h with hv | hv | ⟨h1, h2, hp⟩
  · exact ⟨fun i => s.ram.read (ramIndex (word i v)), fun i oam => busRead_ram _ (by have := hnat i; omega)⟩
  · exact ⟨fun i => prgRead s.cart (word i v), fun i oam => busRead_prg _ (by have := hnat i; omega)⟩
  · refine ⟨fun _ => 0#8, fun i oam => ?_⟩
    have := hnat i
    rw [busRead_outOfRange _ (by omega) (by omega), outOfRangeRead_degrade _ (by exact hp)]

/-- The copy loop over a page that reads as `f`: it completes, changes OAM alone, and puts `f i` at `oam_addr + i` for every
index it copies. -/
theorem oamCopy_of_page_reads {v : Byte} {s : State} {f : Byte → Byte}
    (hf : ∀ i oam, busRead (word i v) (s.withOam oam) = .ok (f i) (s.withOam oam)) {is : List Nat}
    (his : ∀ i ∈ is, i < 256) (oam : Memory) :
    ∃ oam', oamCopy (word 0#8 v) is (s.withOam oam) = .ok () (s.withOam oam')
      ∧ (oam.wf oamSize = true → oam'.wf oamSize = true ∧ ∀ i : Byte, oam'.read (s.ppu.oamAddr + i).toNat
          = if i.toNat ∈ is then f i else oam.read (s.ppu.oamAddr + i).toNat) := by
  induction is generalizing oam with
  | nil => exact ⟨oam, rfl, fun hw => ⟨hw, fun i => by simp⟩⟩
  | cons j js ih =>
    have hj : j < 256 := his j List.mem_cons_self
    obtain ⟨oam', hcopy, hrest⟩ := ih (fun i hi => his i (List.mem_cons_of_mem j hi))
      (oam.write (s.ppu.oamAddr + BitVec.ofNat 8 j).toNat (f (BitVec.ofNat 8 j)))
    refine ⟨oam', ?_, fun hw => ?_⟩
    · rw [oamCopy, word_add_index v hj, hf, Res.bind_ok]
      exact hcopy
    obtain ⟨hw', hread⟩ := hrest (Memory.write_wf hw (BitVec.isLt _) _)
    refine ⟨hw', fun i => ?_⟩
    rw [hread]
    by_cases hij : i.toNat = j
    · have hi : BitVec.ofNat 8 j = i := by rw [← hij]; simp
      simp [hij, hi, Memory.read_write_same hw]
    · have hne : (s.ppu.oamAddr + i).toNat ≠ (s.ppu.oamAddr + BitVec.ofNat 8 j).toNat := by
        intro h
        apply hij
        have hi := (BitVec.add_right_inj _).1 (BitVec.eq_of_toNat_eq h)
        rw [hi, BitVec.toNat_ofNat, Nat.mod_eq_of_lt hj]
      rw [Memory.read_write_of_ne _ _ hne]
      simp [hij]

/-- An OAM-DMA from a readable page completes, with every byte of OAM copied from it. -/
theorem oamDma_of_dmaReadable {v : Byte} {s : State} (h : dmaReadable v s = true) :
    ∃ oam, oamDma v s = .ok () ((s.withOam oam).addCycles s.cfg.oamDmaCycles)
      ∧ (s.ppu.oam.wf oamSize = true → oam.wf oamSize = true
          ∧ ∀ i : Byte, busRead (word i v) s = .ok (oam.read (s.ppu.oamAddr + i).toNat) s) := by
  obtain ⟨f, hf⟩ := page_reads_of_dmaReadable h
  obtain ⟨oam, hcopy, hoam⟩ := oamCopy_of_page_reads hf (is := List.range 256) (fun i => List.mem_range.1) s.ppu.oam
  refine ⟨oam, ?_, fun hw => ?_⟩
  · rw [oamDma]
    exact congrArg (Res.bind · _) hcopy
  obtain ⟨hw', hread⟩ := hoam hw
  refine ⟨hw', fun i => ?_⟩
  rw [hread, if_pos (List.mem_range.2 i.isLt)]
  exact hf i s.ppu.oam

/-- An OAM-DMA whose first read faults ends with that fault. -/
theorem oamDma_of_read_fault {v : Byte} {s t : State} {e : Fault} (h : busRead (word 0#8 v) s = .fault e t) :
    oamDma v s = .fault e t := by
  have hrange : List.range 256 = 0 :: (List.range 255).map Nat.succ := List.range_succ_eq_map
  have hfirst : word 0#8 v + BitVec.ofNat 16 0 = word 0#8 v := word_add_index v (by decide)
  rw [oamDma, hrange, oamCopy, hfirst, h]
  rfl

/-- Port 0, the first address of a page of the PPU window, rejects reads (R50, R253). -/
theorem oamDma_ppuPage {v : Byte} (s : State) (h1 : 0x20 ≤ v.toNat) (h2 : v.toNat ≤ 0x3F) :
    oamDma v s = .fault (.registerAccessViolation .read 0#3) s := by
  have hnat : (word 0#8 v).toNat = v.toNat * 256 + 0 := word_toNat 0#8 v
  have hport : portOf (word 0#8 v) = 0#3 := portOf_of_mod (k := 0) (by omega)
  apply oamDma_of_read_fault
  rw [busRead_port _ (by omega) (by omega), hport]
  rfl

/-- An out-of-range page faults at its first byte under the policy `fault` (R49, R50). -/
theorem oamDma_outOfRangePage {v : Byte} {s : State} (h1 : 0x40 ≤ v.toNat) (h2 : v.toNat ≤ 0x7F)
    (hp : s.cfg.oorPolicy = .fault) : oamDma v s = .fault (.outOfRangeAccess .read (word 0#8 v)) s := by
  have hnat : (word 0#8 v).toNat = v.toNat * 256 + 0 := word_toNat 0#8 v
  apply oamDma_of_read_fault
  rw [busRead_outOfRange _ (by omega) (by omega), outOfRangeRead_fault _ hp]

/-- Settles O17: the copy loop by induction over the indexes still to be copied. -/
theorem oamDmaCopiesPage : Obligations.OamDmaCopiesPage := by
  intro v s hw
  rw [busWrite_dma]
  refine ⟨fun h => ?_, oamDma_ppuPage s, oamDma_outOfRangePage⟩
  obtain ⟨oam, hdma, hoam⟩ := oamDma_of_dmaReadable h
  obtain ⟨hw', hread⟩ := hoam hw
  exact ⟨_, hdma, hread, rfl, hw'⟩

/-! ## Where a write completes -/

/-- An OAM-DMA completes exactly from a readable page. -/
theorem oamDma_completes (v : Byte) (s : State) : (∃ t, oamDma v s = .ok () t) ↔ dmaReadable v s = true := by
  constructor
  · rintro ⟨t, h⟩
    by_contra hv
    rw [dmaReadable_iff] at hv
    by_cases hwindow : 0x20 ≤ v.toNat ∧ v.toNat ≤ 0x3F
    · obtain ⟨h1, h2⟩ := hwindow
      simp [oamDma_ppuPage s h1 h2] at h
    · have hp : s.cfg.oorPolicy = .fault := by
        cases hp : s.cfg.oorPolicy with
        | fault => rfl
        | degrade => simp only [hp, and_true] at hv; omega
      simp [oamDma_outOfRangePage (v := v) (by omega) (by omega) hp] at h
  · intro h
    obtain ⟨oam, hdma, -⟩ := oamDma_of_dmaReadable h
    exact ⟨_, hdma⟩

/-- A port write completes but for port 2, and for port 7 while the VRAM address is in CHR (60_exceptions R251, R253). -/
theorem ppuPortWrite_completes (port : BitVec 3) (v : Byte) (s : State) : (∃ t, ppuPortWrite port v s = .ok () t) ↔
    port ≠ 2#3 ∧ (port ≠ 7#3 ∨ 0x2000 ≤ s.ppu.vramAddr.toNat) := by
  rcases port_cases port with rfl | rfl | rfl | rfl | rfl | rfl | rfl | rfl
  case inr.inr.inr.inr.inr.inr.inr =>
    by_cases hc : s.ppu.vramAddr.toNat ≤ 0x1FFF
    · simp [ppuPortWrite, hc, show ¬0x2000 ≤ s.ppu.vramAddr.toNat by omega]
    · simp [ppuPortWrite, hc, show 0x2000 ≤ s.ppu.vramAddr.toNat by omega]
  all_goals simp [ppuPortWrite]

/-- Settles O16: each region of the memory map has its own condition. -/
theorem busWriteCompletesExactly : Obligations.BusWriteCompletesExactly := by
  intro a v s
  rcases addr_cases a with h | ⟨h1, h2⟩ | rfl | ⟨h1, h2, hne⟩ | h
  · simp [busWrite_ram v s h, busWritable, h]
  · rw [busWrite_port v s h1 h2, ppuPortWrite_completes]
    simp [busWritable, show ¬a.toNat ≤ 0x1FFF by omega, h2]
  · rw [busWrite_dma, oamDma_completes]
    simp [busWritable]
  · rw [busWrite_outOfRange v s h1 h2 hne]
    cases hp : s.cfg.oorPolicy <;>
      simp [outOfRangeWrite, busWritable, hp, hne, show ¬a.toNat ≤ 0x1FFF by omega, show ¬a.toNat ≤ 0x3FFF by omega,
        show ¬0x8000 ≤ a.toNat by omega]
  · have hne : a ≠ 0x4014#16 := by rintro rfl; revert h; decide
    simp [busWrite_prg v s h, busWritable, hne, h, show ¬a.toNat ≤ 0x1FFF by omega, show ¬a.toNat ≤ 0x3FFF by omega]

end Sys2Proof.Machine
end

section
/-! PROOFS. The stack (20_memory R55 to R58), and the stores whose write cannot complete (60_exceptions R200, R251, R253). -/

namespace Sys2Proof.Machine

/-! ## The stack -/

/-- The stack lies in RAM. -/
theorem stackCell_lt (sp : Byte) : 256 + sp.toNat < ramSize := by
  have := sp.isLt
  simp only [ramSize]
  omega

/-- Two stack pointers that differ denote two cells. -/
theorem stackCell_ne {p q : Byte} (h : p ≠ q) : 256 + p.toNat ≠ 256 + q.toNat :=
  fun he => h (BitVec.eq_of_toNat_eq (Nat.add_left_cancel he))

/-- A pushed word lies high byte first, at the two cells SP went through (R57). -/
theorem State.pushed16_read {w : Addr} {s : State} (hw : s.ram.wf ramSize = true) :
    (s.pushed16 w).ram.read (256 + s.sp.toNat) = hi w
      ∧ (s.pushed16 w).ram.read (256 + (s.sp - 1#8).toNat) = lo w := by
  have hne : s.sp ≠ s.sp - 1#8 := by bv_omega
  rw [State.pushed16_ram]
  constructor
  · rw [Memory.read_write_of_ne _ _ (stackCell_ne hne), Memory.read_write_same hw]
  · exact Memory.read_write_same (Memory.write_wf hw (stackCell_lt _) _) _ _

/-- Settles O18: pushes and pulls are equations, so a pull after a push reads the cells the push wrote. -/
theorem pullAfterPush : Obligations.PullAfterPush := by
  intro v w s hw
  refine ⟨⟨_, push8_eq v s, Memory.read_write_same hw _ v, rfl, fun k hk => Memory.read_write_of_ne _ v hk, rfl, ?_⟩,
    ⟨_, push16_eq w s, rfl, ?_⟩, pull8_eq s, pull16_eq s⟩
  · have hsp : s.sp - 1#8 + 1#8 = s.sp := by bv_omega
    rw [pull8_eq]
    simp only [State.setSP_sp, hsp, State.setSP_ram, State.writeRam_ram, Memory.read_write_same hw]
    rfl
  · have hlo : s.sp - 2#8 + 1#8 = s.sp - 1#8 := by bv_omega
    have hhi : s.sp - 2#8 + 2#8 = s.sp := by bv_omega
    obtain ⟨hreadHi, hreadLo⟩ := State.pushed16_read (w := w) hw
    rw [State.pushed16_sp, pull16_eq, State.pushed16_sp, hlo, hhi, hreadHi, hreadLo, word_lo_hi]
    refine ⟨rfl, rfl, fun k hk1 hk2 => ?_, rfl, rfl⟩
    rw [State.pushed16_ram, Memory.read_write_of_ne _ _ hk2, Memory.read_write_of_ne _ _ hk1]

/-! ## Stores that fault -/

/-- A write that `busWritable` refuses faults. -/
theorem busWrite_fault_of_not_writable {a : Addr} {v : Byte} {s : State} (h : busWritable a v s = false) :
    ∃ f u, busWrite a v s = .fault f u := by
  cases hr : busWrite a v s with
  | fault f u => exact ⟨f, u, rfl⟩
  | ok v' t =>
    have := (busWriteCompletesExactly a v s).1 ⟨t, hr⟩
    simp [h] at this

/-- Port 2 rejects writes (60_exceptions R253). -/
theorem ppuPortWrite_status (v : Byte) (s : State) :
    ppuPortWrite 2#3 v s = .fault (.registerAccessViolation .write 2#3) s := rfl

/-- Port 7 refuses a write to CHR, after the increment (60_exceptions R251). -/
theorem ppuPortWrite_chr (v : Byte) {s : State} (h : s.ppu.vramAddr.toNat ≤ 0x1FFF) : ppuPortWrite 7#3 v s =
    .fault (.romWrite .chr (s.ppu.vramAddr.setWidth 16)) { s with ppu := incVramAddr s.ppu } := by
  simp [ppuPortWrite, h]

/-- A store is seen by the host as its one bus write (40_load_store_transfer R104 to R106). -/
theorem exec_store {i : Instr} {r : Reg} {m : MemOperand} (h : storeOf (opOf i) = some (r, m)) (s : State) :
    exec i s = (busWrite (effectiveAddress m s) (s.reg r) s).outcome := by
  rw [exec_eq_runOp, runOp_store h]

/-- Settles O23: a store is its bus write, and each refused write has the fault of its region. -/
theorem storesThatFault : Obligations.StoresThatFault := by
  intro i r m s hi ea
  have hexec : exec i s = (busWrite ea (s.reg r) s).outcome := exec_store hi s
  rw [hexec]
  refine ⟨fun h => ?_, fun h => ?_, fun h1 h2 h => ?_, fun h1 h2 h hv => ?_, fun h1 h2 h hp => ?_, fun h h1 h2 => ?_,
    fun h h1 h2 hp => ?_⟩
  · obtain ⟨f, u, hf⟩ := busWrite_fault_of_not_writable h
    exact ⟨f, u, hf, by rw [hf, Res.outcome_fault]⟩
  · rw [busWrite_prg _ _ h, Res.outcome_fault]
  · rw [busWrite_port _ _ h1 h2, portOf_of_mod h, ppuPortWrite_status, Res.outcome_fault]
  · rw [busWrite_port _ _ h1 h2, portOf_of_mod h, ppuPortWrite_chr _ hv, Res.outcome_fault]
  · rw [busWrite_outOfRange _ _ h1 h2 h, outOfRangeWrite_fault _ hp, Res.outcome_fault]
  · rw [h, busWrite_dma, oamDma_ppuPage _ h1 h2, Res.outcome_fault]
  · rw [h, busWrite_dma, oamDma_outOfRangePage h1 h2 hp, Res.outcome_fault]

end Sys2Proof.Machine
end

section
/-! PROOFS. What an instruction leaves of the memories and the PPU: what each bus access changes, then which accesses a
mnemonic makes (20_memory R44, R45, R50, R51, 30_encoding R86, R87). -/

namespace Sys2Proof.Machine

/-! ## The byte at a place -/

/-- The byte at a place lies in RAM, in a memory of the PPU or in the cartridge. -/
theorem State.byteAt_congr {s t : State} (hram : t.ram = s.ram) (hvram : t.ppu.vram = s.ppu.vram)
    (hpal : t.ppu.pal = s.ppu.pal) (hoam : t.ppu.oam = s.ppu.oam) (hcart : t.cart = s.cart) (pl : Place) :
    t.byteAt pl = s.byteAt pl := by
  cases pl <;> simp only [State.byteAt, hram, hvram, hpal, hoam, hcart]

/-- A write to RAM changes the byte of its own cell alone. -/
theorem State.byteAt_writeRam {k : Nat} {pl : Place} (h : pl ≠ .ram k) (v : Byte) (s : State) :
    (s.writeRam k v).byteAt pl = s.byteAt pl := by
  cases pl with
  | ram j =>
    have hne : j ≠ k := fun e => h (congrArg Place.ram e)
    exact Memory.read_write_of_ne _ v hne
  | vram | pal | oam | prg | chr => rfl

/-- A write to one cell of OAM changes the byte of that cell alone. -/
theorem State.byteAt_withOam_write {k : Nat} {pl : Place} (h : pl ≠ .oam k) (v : Byte) (s : State) :
    (s.withOam (s.ppu.oam.write k v)).byteAt pl = s.byteAt pl := by
  cases pl with
  | oam j =>
    have hne : j ≠ k := fun e => h (congrArg Place.oam e)
    exact Memory.read_write_of_ne _ v hne
  | ram | vram | pal | prg | chr => rfl

/-! ## What bus accesses change -/

/-- `q` is `p` but for the registers a port read writes: the status, the write toggle, the VRAM address, the read buffer
(60_exceptions R243, R250). -/
def Ppu.EqButReadRegisters (p q : Ppu) : Prop :=
  q = { p with status := q.status, w := q.w, vramAddr := q.vramAddr, readBuf := q.readBuf }

theorem Ppu.EqButReadRegisters.refl (p : Ppu) : p.EqButReadRegisters p := rfl

theorem Ppu.EqButReadRegisters.trans {p q r : Ppu} (hpq : p.EqButReadRegisters q) (hqr : q.EqButReadRegisters r) :
    p.EqButReadRegisters r := by
  unfold Ppu.EqButReadRegisters at *
  rw [hqr, hpq]

/-- A completed bus read writes the read registers of the PPU at most (R51). -/
theorem busRead_eqButReadRegisters {a : Addr} {s t : State} {v : Byte} (h : busRead a s = .ok v t) :
    s.ppu.EqButReadRegisters t.ppu := by
  rcases busRead_ok h with rfl | ⟨-, -, -, -, rfl⟩ | ⟨-, -, -, -, rfl⟩
  · exact .refl _
  · rfl
  · simp only [afterDataRead]
    split <;> rfl

/-- States with the same RAM and cartridge, and PPUs that differ in the read registers at most, hold the same bytes. -/
theorem State.byteAt_of_eqButReadRegisters {s t : State} (hram : t.ram = s.ram) (hcart : t.cart = s.cart)
    (hppu : s.ppu.EqButReadRegisters t.ppu) (pl : Place) : t.byteAt pl = s.byteAt pl := by
  have hvram : t.ppu.vram = s.ppu.vram := by rw [hppu]
  have hpal : t.ppu.pal = s.ppu.pal := by rw [hppu]
  have hoam : t.ppu.oam = s.ppu.oam := by rw [hppu]
  exact State.byteAt_congr hram hvram hpal hoam hcart pl

/-- A completed bus read changes no byte of any memory (R44). -/
theorem busRead_byteAt {a : Addr} {s t : State} {v : Byte} (h : busRead a s = .ok v t) (pl : Place) :
    t.byteAt pl = s.byteAt pl := by
  have hother := busRead_ok_ppu h
  exact State.byteAt_of_eqButReadRegisters (by rw [hother]) (by rw [hother]) (busRead_eqButReadRegisters h) pl

/-- The copy loop of an OAM-DMA changes no byte outside the 256 of OAM (R50). -/
theorem oamCopy_byteAt {base : Addr} {is : List Nat} {s t : State} {u : Unit} {pl : Place}
    (h : oamCopy base is s = .ok u t) (hpl : ∀ k, k < oamSize → pl ≠ .oam k) : t.byteAt pl = s.byteAt pl := by
  induction is generalizing s with
  | nil => cases h; rfl
  | cons i is ih =>
    obtain ⟨b, s1, hread, hrest⟩ := Res.bind_eq_ok.1 h
    calc t.byteAt pl
        = (s1.withOam (s1.ppu.oam.write (s1.ppu.oamAddr + BitVec.ofNat 8 i).toNat b)).byteAt pl := ih hrest
      _ = s1.byteAt pl := State.byteAt_withOam_write (hpl _ (BitVec.isLt _)) b s1
      _ = s.byteAt pl := busRead_byteAt hread pl

/-- A completed write through port 7 changes the byte of its own cell alone (60_exceptions R251). -/
theorem writeVramData_byteAt {s : State} {pl : Place} (v : Byte)
    (hvram : s.ppu.vramAddr.toNat ≤ 0x3EFF → pl ≠ .vram (ntIndex s.cart.mirroring s.ppu.vramAddr))
    (hpal : ¬s.ppu.vramAddr.toNat ≤ 0x3EFF → pl ≠ .pal (palIndex s.ppu.vramAddr)) :
    { s with ppu := writeVramData s.cart v s.ppu }.byteAt pl = s.byteAt pl := by
  unfold writeVramData
  split
  case isTrue hva =>
    cases pl with
    | vram j =>
      have hne : j ≠ ntIndex s.cart.mirroring s.ppu.vramAddr := fun e => hvram hva (congrArg Place.vram e)
      exact Memory.read_write_of_ne _ v hne
    | ram | pal | oam | prg | chr => rfl
  case isFalse hva =>
    cases pl with
    | pal j =>
      have hne : j ≠ palIndex s.ppu.vramAddr := fun e => hpal hva (congrArg Place.pal e)
      exact Memory.read_write_of_ne _ v hne
    | ram | vram | oam | prg | chr => rfl

/-- A completed bus write changes no byte but those `writeTouches` names (R45, R50, 60_exceptions R245, R251). -/
theorem busWrite_byteAt {a : Addr} {v : Byte} {s t : State} {u : Unit} {pl : Place} (h : busWrite a v s = .ok u t)
    (hpl : writeTouches a s pl = false) : t.byteAt pl = s.byteAt pl := by
  rcases busWrite_ok h with ⟨h1, rfl⟩ | ⟨h1, h2, hport⟩ | ⟨rfl, hdma⟩ | ⟨-, -, -, -, rfl⟩
  · have hne : pl ≠ .ram (ramIndex a) := by simpa [writeTouches, h1] using hpl
    exact State.byteAt_writeRam hne v s
  · simp only [writeTouches, show ¬a.toNat ≤ 0x1FFF by omega, h2, if_true, if_false] at hpl
    rcases ppuPortWrite_ok hport with
      ⟨-, rfl⟩ | ⟨-, rfl⟩ | ⟨-, rfl⟩ | ⟨hp, rfl⟩ | ⟨-, rfl⟩ | ⟨-, rfl⟩ | ⟨hp, -, rfl⟩
    · exact State.byteAt_congr rfl rfl rfl rfl rfl pl
    · exact State.byteAt_congr rfl rfl rfl rfl rfl pl
    · exact State.byteAt_congr rfl rfl rfl rfl rfl pl
    · have hne : pl ≠ .oam s.ppu.oamAddr.toNat := by simpa [hp] using hpl
      exact (State.byteAt_congr rfl rfl rfl rfl rfl pl).trans (State.byteAt_withOam_write hne v s)
    · simp only [writeScroll]
      split <;> exact State.byteAt_congr rfl rfl rfl rfl rfl pl
    · simp only [writeVramAddr]
      split <;> exact State.byteAt_congr rfl rfl rfl rfl rfl pl
    · simp only [hp, show ¬(7#3 = 4#3) by decide, if_true, if_false] at hpl
      exact writeVramData_byteAt v (fun hva => by simpa [hva] using hpl) (fun hva => by simpa [hva] using hpl)
  · obtain ⟨_, s1, hcopy, hend⟩ := Res.bind_eq_ok.1 hdma
    cases hend
    refine oamCopy_byteAt (t := s1) hcopy fun k hk e => ?_
    subst e
    simp [writeTouches, hk] at hpl
  · rfl

/-! ## Instructions that write to the bus -/

/-- Settles O46: a store is its one bus write. -/
theorem memoryFrameOfStores : Obligations.MemoryFrameOfStores := by
  intro i r m s t pl hi h hpl
  have hwrite : busWrite (effectiveAddress m s) (s.reg r) s = .ok () t := runOp_store hi s ▸ exec_eq_next.1 h
  exact busWrite_byteAt hwrite hpl

/-- A completed read-modify-write instruction is one read and one write at its effective address, then flags (30_encoding
R86, 42_shift_rotate R135). -/
theorem runOp_modify_ok {op : Op} {m : MemOperand} {s t : State} (hop : modifyOf op = some m) (h : runOp op s = .ok () t) :
    ∃ v s1 w s2, busRead (effectiveAddress m s) s = .ok v s1 ∧ busWrite (effectiveAddress m s) w s1 = .ok () s2
      ∧ t = { s2 with p := t.p } := by
  cases op with
  | inc | dec =>
    cases hop
    obtain ⟨v, s1, s2, hread, hwrite, rfl⟩ := modifyMemory_ok h
    exact ⟨v, s1, _, s2, hread, hwrite, rfl⟩
  | asl tgt | lsr tgt | rol tgt | ror tgt =>
    cases tgt with
    | acc => cases hop
    | mem =>
      cases hop
      obtain ⟨v, s1, s2, hread, hwrite, rfl⟩ := shiftOperand_mem_ok h
      exact ⟨v, s1, _, s2, hread, hwrite, rfl⟩
  | _ => cases hop

/-- Settles O47: the read changes no byte, and the write runs in the state the read leaves. -/
theorem memoryFrameOfModifies : Obligations.MemoryFrameOfModifies := by
  intro i m s t s1 v pl hi hread h hpl
  obtain ⟨v', s1', w, s2, hread', hwrite, ht⟩ := runOp_modify_ok hi (exec_eq_next.1 h)
  cases hread.symm.trans hread'
  calc t.byteAt pl
      = s2.byteAt pl := by rw [ht]; exact State.byteAt_congr rfl rfl rfl rfl rfl pl
    _ = s1.byteAt pl := busWrite_byteAt hwrite hpl
    _ = s.byteAt pl := busRead_byteAt hread pl

/-- An instruction that pushes changes nothing of the PPU, and no byte but the cells of the stack it pushes to (R55, R57). -/
theorem runOp_push_frame {op : Op} {s t : State} (hop : pushes op ≠ 0) (h : runOp op s = .ok () t) :
    t.ppu = s.ppu ∧ ∀ pl : Place, (∀ k, k < pushes op → pl ≠ .ram (256 + (s.sp - BitVec.ofNat 8 k).toNat)) →
      t.byteAt pl = s.byteAt pl := by
  have hfirst {pl : Place} (h0 : pl ≠ .ram (256 + (s.sp - 0#8).toNat)) : pl ≠ .ram (256 + s.sp.toNat) := by
    rwa [BitVec.sub_zero] at h0
  cases op with
  | pha | php =>
    cases (push8_eq _ s).symm.trans h
    exact ⟨rfl, fun pl hpl => State.byteAt_writeRam (hfirst (hpl 0 Nat.zero_lt_one)) _ s⟩
  | jsr w =>
    obtain ⟨_, u, hpush, ht⟩ := Res.bind_eq_ok.1 h
    cases (push16_eq _ s).symm.trans hpush
    cases ht
    exact ⟨rfl, fun pl hpl => (State.byteAt_writeRam (hpl 1 Nat.one_lt_two) _ _).trans
      (State.byteAt_writeRam (hfirst (hpl 0 Nat.zero_lt_two)) _ s)⟩
  | brk =>
    cases (softwareTrap_eq s).symm.trans h
    exact ⟨rfl, fun pl hpl => (State.byteAt_writeRam (hpl 2 (by decide)) _ _).trans
      ((State.byteAt_writeRam (hpl 1 (by decide)) _ _).trans
        (State.byteAt_writeRam (hfirst (hpl 0 (by decide))) _ s))⟩
  | _ => exact absurd rfl hop

/-- Settles O48: the pushes are equations, each a write to one cell of RAM. -/
theorem memoryFrameOfPushes : Obligations.MemoryFrameOfPushes := by
  intro i s t pl hop h
  obtain ⟨hppu, hbytes⟩ := runOp_push_frame hop (exec_eq_next.1 h)
  exact ⟨hppu, hbytes pl⟩

/-! ## Instructions that write nothing to the bus -/

/-- A reading instruction that completes is its operand read, then registers and flags (30_encoding R86). -/
theorem runOp_reading_ok {op : Op} {src : Source} {s t : State} (hop : readSource op = some src)
    (h : runOp op s = .ok () t) :
    ∃ v u, readOperand src s = .ok v u ∧ t = { u with a := t.a, x := t.x, y := t.y, p := t.p } := by
  cases op with
  | lda | ldx | ldy | adc | sbc | and | ora | eor | cmp | cpx | cpy | bit =>
    cases hop
    obtain ⟨v, u, hread, ht⟩ := Res.bind_eq_ok.1 h
    cases ht
    exact ⟨v, u, hread, rfl⟩
  | _ => cases hop

/-- What a completed instruction that stores and pushes nothing does to RAM and the PPU: its operand read, the pointer reads
of JMP Indirect, or nothing (30_encoding R86, R87). -/
theorem runOp_nonStoring_ok {op : Op} {s t : State} (hstore : storeOf op = none) (hmodify : modifyOf op = none)
    (hpush : pushes op = 0) (h : runOp op s = .ok () t) :
    (∃ src v u, readSource op = some src ∧ readOperand src s = .ok v u ∧ t.ram = u.ram ∧ t.ppu = u.ppu)
    ∨ (∃ ptr w u, op = .jmp (.ind ptr) ∧ indirectTarget ptr s = .ok w u ∧ t.ram = u.ram ∧ t.ppu = u.ppu)
    ∨ (t.ram = s.ram ∧ t.ppu = s.ppu) := by
  cases hsrc : readSource op with
  | some src =>
    obtain ⟨v, u, hread, ht⟩ := runOp_reading_ok hsrc h
    exact .inl ⟨src, v, u, rfl, hread, by rw [ht], by rw [ht]⟩
  | none =>
    refine .inr ?_
    cases op with
    | lda | ldx | ldy | adc | sbc | and | ora | eor | cmp | cpx | cpy | bit => cases hsrc
    | sta | stx | sty => cases hstore
    | inc | dec => cases hmodify
    | pha | php | jsr | brk => cases hpush
    | tax | tay | txa | tya | tsx | txs | inx | iny | dex | dey | clc | sec | cli | sei | cld | sed | clv | nop =>
      cases h
      exact .inr ⟨rfl, rfl⟩
    | asl tgt | lsr tgt | rol tgt | ror tgt =>
      cases tgt with
      | acc => cases h; exact .inr ⟨rfl, rfl⟩
      | mem => cases hmodify
    | bcc | bcs | beq | bne | bmi | bpl | bvc | bvs =>
      cases (branchIf_eq _ _ s).symm.trans h
      split <;> exact .inr ⟨rfl, rfl⟩
    | jmp j =>
      cases j with
      | abs => cases h; exact .inr ⟨rfl, rfl⟩
      | ind ptr =>
        obtain ⟨w, u, hread, ht⟩ := Res.bind_eq_ok.1 h
        cases ht
        exact .inl ⟨ptr, w, u, rfl, hread, rfl, rfl⟩
    | rts =>
      obtain ⟨w, u, hpull, ht⟩ := Res.bind_eq_ok.1 h
      cases (pull16_eq s).symm.trans hpull
      cases ht
      exact .inr ⟨rfl, rfl⟩
    | pla | plp =>
      obtain ⟨w, u, hpull, ht⟩ := Res.bind_eq_ok.1 h
      cases (pull8_eq s).symm.trans hpull
      cases ht
      exact .inr ⟨rfl, rfl⟩
    | rti =>
      cases (returnFromInterrupt_eq s).symm.trans h
      exact .inr ⟨rfl, rfl⟩
    | illegal => cases h

/-- A completed operand read writes the read registers of the PPU at most. -/
theorem readOperand_eqButReadRegisters {src : Source} {s t : State} {v : Byte} (h : readOperand src s = .ok v t) :
    s.ppu.EqButReadRegisters t.ppu := by
  cases src with
  | imm => cases h; exact .refl _
  | mem m => exact busRead_eqButReadRegisters (s := s.addCycles _) h

/-- A completed pointer read writes the read registers of the PPU at most (R83). -/
theorem indirectTarget_eqButReadRegisters {ptr w : Addr} {s t : State} (h : indirectTarget ptr s = .ok w t) :
    s.ppu.EqButReadRegisters t.ppu := by
  obtain ⟨l, s1, hlow, h'⟩ := Res.bind_eq_ok.1 h
  obtain ⟨g, s2, hhigh, hend⟩ := Res.bind_eq_ok.1 h'
  cases hend
  exact (busRead_eqButReadRegisters hlow).trans (busRead_eqButReadRegisters hhigh)

/-- An operand read outside the PPU window leaves the PPU alone (R51). -/
theorem readOperand_outside {src : Source} {s t : State} {v : Byte} (h : readOperand src s = .ok v t)
    (hsrc : ∀ m, src = .mem m → outsidePpu (effectiveAddress m s) = true) : t.ppu = s.ppu := by
  cases src with
  | imm => cases h; rfl
  | mem m => rw [busRead_outside h (hsrc m rfl), State.addCycles_ppu]

/-- A pointer read whose two reads are outside the PPU window changes nothing (R51, R83). -/
theorem indirectTarget_outside {ptr w : Addr} {s t : State} (h : indirectTarget ptr s = .ok w t)
    (hlow : outsidePpu ptr = true) (hhigh : outsidePpu (word (lo ptr + 1#8) (hi ptr)) = true) : t = s := by
  obtain ⟨l, s1, h1, h'⟩ := Res.bind_eq_ok.1 h
  obtain ⟨g, s2, h2, hend⟩ := Res.bind_eq_ok.1 h'
  cases hend
  exact (busRead_outside h2 hhigh).trans (busRead_outside h1 hlow)

/-- An instruction that writes nothing to the bus but its pushes writes the read registers of the PPU at most. -/
theorem runOp_eqButReadRegisters {op : Op} {s t : State} (hstore : storeOf op = none) (hmodify : modifyOf op = none)
    (h : runOp op s = .ok () t) : s.ppu.EqButReadRegisters t.ppu := by
  by_cases hpush : pushes op = 0
  · rcases runOp_nonStoring_ok hstore hmodify hpush h with
      ⟨_, _, u, -, hread, -, ht⟩ | ⟨_, _, u, -, hread, -, ht⟩ | ⟨-, ht⟩
    · rw [ht]; exact readOperand_eqButReadRegisters hread
    · rw [ht]; exact indirectTarget_eqButReadRegisters hread
    · rw [ht]; exact .refl _
  · obtain ⟨ht, -⟩ := runOp_push_frame hpush h
    rw [ht]; exact .refl _

/-- An instruction that stores and pushes nothing leaves RAM alone. -/
theorem runOp_nonStoring_ram {op : Op} {s t : State} (hstore : storeOf op = none) (hmodify : modifyOf op = none)
    (hpush : pushes op = 0) (h : runOp op s = .ok () t) : t.ram = s.ram := by
  rcases runOp_nonStoring_ok hstore hmodify hpush h with
    ⟨_, _, u, -, hread, ht, -⟩ | ⟨_, _, u, -, hread, ht, -⟩ | ⟨ht, -⟩
  · rw [ht, (readOperand_ok hread).1]
  · rw [ht, indirectTarget_ok hread]
  · exact ht

/-- Settles O45: RAM and the cartridge are the same, and the PPU differs in its read registers at most. -/
theorem memoryFrameOfNonStoring : Obligations.MemoryFrameOfNonStoring := by
  intro i s t pl h hstore hmodify hpush
  have hrun := exec_eq_next.1 h
  obtain ⟨-, hcart, -⟩ := pcAndConfigurationFrame i s t h
  exact State.byteAt_of_eqButReadRegisters (runOp_nonStoring_ram hstore hmodify hpush hrun) hcart
    (runOp_eqButReadRegisters hstore hmodify hrun) pl

/-- An instruction that writes nothing to the bus but its pushes, and reads nothing in the PPU window, leaves the PPU
alone (R51). -/
theorem runOp_ppu_of_outside {op : Op} {s t : State} (hstore : storeOf op = none) (hmodify : modifyOf op = none)
    (hdata : ∀ m, readSource op = some (.mem m) → outsidePpu (effectiveAddress m s) = true)
    (hptr : ∀ ptr, op = .jmp (.ind ptr) → outsidePpu ptr = true ∧ outsidePpu (word (lo ptr + 1#8) (hi ptr)) = true)
    (h : runOp op s = .ok () t) : t.ppu = s.ppu := by
  by_cases hpush : pushes op = 0
  · rcases runOp_nonStoring_ok hstore hmodify hpush h with
      ⟨src, v, u, hsrc, hread, -, ht⟩ | ⟨ptr, w, u, hop, hread, -, ht⟩ | ⟨-, ht⟩
    · rw [ht, readOperand_outside hread fun m hm => hdata m (hm ▸ hsrc)]
    · obtain ⟨hlow, hhigh⟩ := hptr ptr hop
      rw [ht, indirectTarget_outside hread hlow hhigh]
    · exact ht
  · obtain ⟨ht, -⟩ := runOp_push_frame hpush h
    exact ht

/-- Settles O49: data and pointer reads are all such an instruction does to the PPU. -/
theorem ppuFrameOfNonStoring : Obligations.PpuFrameOfNonStoring := by
  intro i s t h hstore hmodify
  have hrun := exec_eq_next.1 h
  have hppu := runOp_eqButReadRegisters hstore hmodify hrun
  rw [Ppu.EqButReadRegisters] at hppu
  refine ⟨?_, ?_, ?_, ?_, ?_, ?_, ?_, ?_, fun hdata hptr =>
    runOp_ppu_of_outside hstore hmodify hdata hptr hrun⟩ <;> rw [hppu]

end Sys2Proof.Machine
end

section
/-! PROOFS. The decoder and the encoder are inverse (30_encoding R70, R71, R90, R92): what an opcode byte decides whatever
its operand bytes are, what `decode` reads, and that the bytes of an instruction are read back as it. -/

namespace Sys2Proof.Machine

/-! ## What an opcode byte decides (R70, R71) -/

/-- The instruction decoded has the opcode byte it was decoded from. -/
theorem opcodeOf_decodeOpcode (opcode b1 b2 : Byte) : opcodeOf (decodeOpcode opcode b1 b2) = opcode := by
  have hzero : opcodeOf (decodeOpcode opcode 0#8 0#8) = opcode := by revert opcode; decide +kernel
  refine Eq.trans ?_ hzero
  unfold decodeOpcode
  split <;> rfl

/-- The instruction decoded has as many of the operand bytes offered as its opcode byte takes, in their order (R73). -/
theorem operandBytes_decodeOpcode (opcode b1 b2 : Byte) :
    operandBytes (opOf (decodeOpcode opcode b1 b2)) = [b1, b2].take (operandCount opcode) := by
  obtain ⟨w, rfl, rfl⟩ : ∃ w, lo w = b1 ∧ hi w = b2 := ⟨word b1 b2, lo_word b1 b2, hi_word b1 b2⟩
  unfold operandCount decodeOpcode
  rw [word_lo_hi]
  split <;> rfl

/-- An opcode byte takes two operand bytes at most. -/
theorem operandCount_le (opcode : Byte) : operandCount opcode ≤ 2 := by
  revert opcode
  decide +kernel

theorem length_operandBytes_decodeOpcode (opcode b1 b2 : Byte) :
    (operandBytes (opOf (decodeOpcode opcode b1 b2))).length = operandCount opcode := by
  have := operandCount_le opcode
  rw [operandBytes_decodeOpcode, List.length_take]
  exact Nat.min_eq_left this

/-! ## What `decode` reads -/

/-- The instruction of an opcode byte and the operand bytes that stand in a list, the missing ones read as 0. -/
theorem decode_eq_ok {bs rest : List Byte} {i : Instr} : decode bs = .ok i rest ↔
    ∃ opcode operands, bs = opcode :: operands ++ rest ∧ operandCount opcode = operands.length
      ∧ i = decodeOpcode opcode (operands.getD 0 0#8) (operands.getD 1 0#8) := by
  constructor
  · intro h
    cases bs with
    | nil => cases h
    | cons opcode bs =>
      simp only [decode] at h
      split at h
      next hcount => cases h; exact ⟨opcode, [], rfl, hcount, rfl⟩
      next b1 _ hcount => cases h; exact ⟨opcode, [b1], rfl, hcount, rfl⟩
      next b1 b2 _ hcount => cases h; exact ⟨opcode, [b1, b2], rfl, hcount, rfl⟩
      next => cases h
  · rintro ⟨opcode, operands, rfl, hcount, rfl⟩
    have hle := operandCount_le opcode
    match operands with
    | [] | [_] | [_, _] => simp [decode, hcount]
    | _ :: _ :: _ :: _ => simp only [hcount, List.length_cons] at hle; omega

/-- Each instruction is what its own bytes decode to. -/
theorem decodeOpcode_operandBytes {i : Instr} (hi : i.wf = true) : decodeOpcode (opcodeOf i)
    ((operandBytes (opOf i)).getD 0 0#8) ((operandBytes (opOf i)).getD 1 0#8) = i := by
  cases i with
  | illegal opcode =>
    change isIllegalOpcode opcode = true at hi
    change decodeOpcode opcode 0#8 0#8 = .illegal opcode
    revert opcode
    decide +kernel
  | ldaAbs w | ldaAbx w | ldaAby w | ldxAbs w | ldxAby w | ldyAbs w | ldyAbx w | staAbs w | staAbx w | staAby w | stxAbs w
  | styAbs w | adcAbs w | adcAbx w | adcAby w | sbcAbs w | sbcAbx w | sbcAby w | andAbs w | andAbx w | andAby w | oraAbs w
  | oraAbx w | oraAby w | eorAbs w | eorAbx w | eorAby w | cmpAbs w | cmpAbx w | cmpAby w | cpxAbs w | cpyAbs w | bitAbs w
  | incAbs w | incAbx w | decAbs w | decAbx w | aslAbs w | aslAbx w | lsrAbs w | lsrAbx w | rolAbs w | rolAbx w | rorAbs w
  | rorAbx w | jmpAbs w | jmpInd w | jsr w => exact congrArg _ (word_lo_hi w)
  | _ => rfl

theorem operandCount_opcodeOf {i : Instr} (hi : i.wf = true) :
    operandCount (opcodeOf i) = (operandBytes (opOf i)).length := by
  rw [← length_operandBytes_decodeOpcode, decodeOpcode_operandBytes hi]

/-- Settles O1: the bytes of an instruction are its opcode and as many operand bytes as that opcode takes. -/
theorem decodeOfEncodeIsIdentity : Obligations.DecodeOfEncodeIsIdentity :=
  fun i _ hi => decode_eq_ok.2
    ⟨opcodeOf i, operandBytes (opOf i), rfl, operandCount_opcodeOf hi, (decodeOpcode_operandBytes hi).symm⟩

/-- An opcode byte and the operand bytes it takes are the encoding of the instruction they decode to. -/
theorem encode_decodeOpcode {opcode : Byte} {operands : List Byte} (h : operandCount opcode = operands.length) :
    encode (decodeOpcode opcode (operands.getD 0 0#8) (operands.getD 1 0#8)) = opcode :: operands := by
  have hle := operandCount_le opcode
  rw [encode, opcodeOf_decodeOpcode, operandBytes_decodeOpcode, h]
  match operands with
  | [] | [_] | [_, _] => rfl
  | _ :: _ :: _ :: _ => simp only [h, List.length_cons] at hle; omega

/-- A byte of R92 decodes to `illegal`, whatever follows it: it takes no operand bytes. -/
theorem decodeOpcode_of_isIllegalOpcode {opcode : Byte} (h : isIllegalOpcode opcode = true) (b1 b2 : Byte) :
    decodeOpcode opcode b1 b2 = .illegal opcode := by
  have hbytes : operandBytes (opOf (decodeOpcode opcode b1 b2)) = [] := by
    rw [operandBytes_decodeOpcode, Laws.operandCount_illegal opcode h, List.take_zero]
  have hself := decodeOpcode_operandBytes (decodeOpcode_wf opcode b1 b2)
  rw [opcodeOf_decodeOpcode, hbytes] at hself
  exact hself.symm.trans (decodeOpcode_operandBytes (i := .illegal opcode) h)

/-- Settles O2: what is read is an opcode with its operand bytes, and a well-formed `illegal` holds a byte of R92. -/
theorem encodeOfDecodeIsIdentity : Obligations.EncodeOfDecodeIsIdentity := by
  refine ⟨fun bs rest i h => ?_, fun opcode b1 b2 => ⟨opcodeOf_decodeOpcode opcode b1 b2, fun h => ?_,
    fun h => decodeOpcode_of_isIllegalOpcode h b1 b2⟩⟩
  · obtain ⟨opcode, operands, rfl, hcount, rfl⟩ := decode_eq_ok.1 h
    exact ⟨decodeOpcode_wf _ _ _, by rw [encode_decodeOpcode hcount]⟩
  · have hwf : (Instr.illegal opcode).wf = true := h ▸ decodeOpcode_wf opcode b1 b2
    exact hwf

/-- Settles O3: each word is read by evaluation. -/
theorem specWordsDecode : Obligations.SpecWordsDecode := by
  unfold Obligations.SpecWordsDecode
  decide

end Sys2Proof.Machine
end

section
/-! PROOFS. The illegal opcodes (30_encoding R92), the operand forms (R75 to R86) and the jumps (43_control_flow R156). -/

namespace Sys2Proof.Machine

/-! ## Illegal opcodes (R92) -/

/-- Fetching a byte of R92 as opcode reads no operand and adds no cycle: PC has advanced by 1, and no more. -/
theorem fetchInstr_illegal {s t : State} {opcode : Byte} (hread : busRead s.pc s = .ok opcode t)
    (hill : isIllegalOpcode opcode = true) : fetchInstr s = .ok (.illegal opcode) (t.setPC (s.pc + 1#16)) := by
  have hpc : t.pc = s.pc := by rw [busRead_ok_ppu hread]
  have hfetch : fetch8 s = .ok opcode (t.setPC (s.pc + 1#16)) := by rw [fetch8, hread, Res.bind_ok, hpc]
  rw [fetchInstr, hfetch, Res.bind_ok, Laws.operandCount_illegal opcode hill,
    decodeOpcode_of_isIllegalOpcode hill, fetchBytes, Res.bind_ok, decodeOpcode_of_isIllegalOpcode hill]
  rfl

/-- With no fault recorded and no interrupt pending, the driver sees the state of one instruction (R6 (c)). -/
theorem driverStep_eq_instructionRun {s : State} (hf : s.fault = none) (hn : s.ppu.nmiPending = false) :
    driverStep s = (instructionRun s).state := by
  simp [driverStep, hf, hn]

/-- Settles O5: the opcode read is all that happens before the fault, which records the address one before PC. -/
theorem illegalOpcodeStops : Obligations.IllegalOpcodeStops := by
  refine ⟨fun opcode s => by rw [exec_eq_runOp]; rfl, fun s t opcode hf hn hread hill => ?_⟩
  have hfetch := fetchInstr_illegal hread hill
  have hback : s.pc + 1#16 - 1#16 = s.pc := BitVec.add_sub_cancel s.pc 1#16
  have hrun : instructionRun s = .fault (.illegalOpcode opcode s.pc) (t.setPC (s.pc + 1#16)) := by
    rw [instructionRun, hfetch, Res.bind_ok, show opOf (.illegal opcode) = .illegal opcode from rfl, runOp_illegal,
      Res.bind_fault, State.setPC_pc, hback]
  rw [step_eq_instructionStep hf hn, instructionStep_eq_outcome, driverStep_eq_instructionRun hf hn, hrun]
  exact ⟨rfl, rfl⟩

/-! ## Effective addresses (R76 to R85) -/

/-- A page-zero pointer is two bytes of page zero, the second address wrapping inside it (R84, R85). -/
theorem zeroPagePointer_toNat (z : Byte) (s : State) : (zeroPagePointer z s).toNat =
    (s.ram.read z.toNat).toNat + 256 * (s.ram.read ((z.toNat + 1) % 256)).toNat := by
  have hnext : (z + 1#8).toNat = (z.toNat + 1) % 256 := BitVec.toNat_add z 1#8
  rw [zeroPagePointer, word_toNat, zeroPageByte, zeroPageByte, hnext]
  omega

/-- An address indexed by a register wraps modulo 65536 (R80, R81, R85). -/
theorem add_zext16_toNat (w : Addr) (b : Byte) : (w + zext16 b).toNat = (w.toNat + b.toNat) % 65536 := by
  rw [BitVec.toNat_add, zext16_toNat]

/-- Settles O19: each mode by the law of its one addition, in page zero or in the address space. -/
theorem effectiveAddresses : Obligations.EffectiveAddresses := by
  intro a w s
  refine ⟨zext16_toNat a, ?_, ?_, rfl, add_zext16_toNat w s.x, add_zext16_toNat w s.y, ?_, ?_⟩
  · exact (zext16_toNat _).trans (BitVec.toNat_add a s.x)
  · exact (zext16_toNat _).trans (BitVec.toNat_add a s.y)
  · refine (zeroPagePointer_toNat (a + s.x) s).trans ?_
    rw [BitVec.toNat_add, Nat.mod_add_mod]
  · refine (add_zext16_toNat _ s.y).trans ?_
    rw [baseAddress, zeroPagePointer_toNat]

/-! ## Reading an operand (R75, R86, R88) -/

/-- A memory operand is one bus read, in the state with the page-cross cycle added (R86, R88). -/
theorem readOperand_mem (m : MemOperand) (s : State) : readOperand (.mem m) s =
    busRead (effectiveAddress m s) (s.addCycles (crossing (baseAddress m s) (effectiveAddress m s) s)) := by
  rw [readOperand, pageCrossCycles_eq]

/-- Settles O20: an operand of memory is its bus read, which RAM and PRG answer without a side effect. -/
theorem operandsAreRead : Obligations.OperandsAreRead := by
  refine ⟨readOperand_imm, ?_, busRead_completes, readOperand_completes⟩
  intro m s ea t
  have hread : readOperand (.mem m) s = busRead ea t := readOperand_mem m s
  exact ⟨hread, fun h => hread.trans (busRead_ram t h), fun h => hread.trans (busRead_prg t h)⟩

/-! ## Jumps (R83, R156) -/

/-- The address of a pointer's second byte stays in the pointer's page (R83). -/
theorem pointerSecond_toNat (w : Addr) : (word (lo w + 1#8) (hi w)).toNat =
    if w.toNat % 256 = 255 then w.toNat - 255 else w.toNat + 1 := by
  have hlo : (lo w).toNat = w.toNat % 256 := BitVec.toNat_setWidth 8 w
  rw [word_toNat, hi_toNat, BitVec.toNat_add, hlo, BitVec.toNat_ofNat]
  split <;> omega

/-- Which addresses can be read depends on the parameters alone. -/
theorem busReadable_congr {s t : State} (hcfg : t.cfg = s.cfg) (a : Addr) : busReadable a t = busReadable a s := by
  rw [busReadable, busReadable, hcfg]

/-- A pointer whose two bytes are read is the word of them (R83). -/
theorem indirectTarget_of_reads {ptr : Addr} {l h : Byte} {s t u : State} (hlow : busRead ptr s = .ok l t)
    (hhigh : busRead (word (lo ptr + 1#8) (hi ptr)) t = .ok h u) : indirectTarget ptr s = .ok (word l h) u := by
  rw [indirectTarget, hlow, Res.bind_ok, hhigh, Res.bind_ok]

/-- JMP Indirect jumps to the word its pointer's two bytes hold (R156). -/
theorem exec_jmpInd_of_reads {w : Addr} {l h : Byte} {s t u : State} (hlow : busRead w s = .ok l t)
    (hhigh : busRead (word (lo w + 1#8) (hi w)) t = .ok h u) : exec (.jmpInd w) s = .next (u.setPC (word l h)) := by
  refine exec_eq_next.2 ?_
  change (indirectTarget w s).bind _ = _
  rw [indirectTarget_of_reads hlow hhigh, Res.bind_ok]

/-- Settles O36: the second read runs in the state the first leaves, which has the same parameters. -/
theorem jumpsJump : Obligations.JumpsJump := by
  intro w s
  refine ⟨rfl, ⟨_, pointerSecond_toNat w, fun l h t u => exec_jmpInd_of_reads, fun hw hsecond => ?_⟩, rfl, rfl, rfl, rfl⟩
  obtain ⟨l, t, hlow⟩ := (busRead_completes w s).2 hw
  have hcfg : t.cfg = s.cfg := by rw [busRead_ok_ppu hlow]
  obtain ⟨h, u, hhigh⟩ := (busRead_completes _ t).2 ((busReadable_congr hcfg _).trans hsecond)
  exact ⟨_, exec_jmpInd_of_reads hlow hhigh⟩

end Sys2Proof.Machine
end

section
/-! PROOFS. The cycles an instruction adds beyond its base cost (30_encoding R72, R88, 43_control_flow R147, 20_memory R50):
one law per line of `extraCycles`. -/

namespace Sys2Proof.Machine

variable {op : Op} {s t : State}

/-! ## The lines of `extraCycles` -/

theorem extraCycles_of_readSource_imm {v : Byte} (h : readSource op = some (.imm v)) (s : State) :
    extraCycles op s = 0 := by
  cases op <;> cases h <;> rfl

theorem extraCycles_of_readSource_mem {m : MemOperand} (h : readSource op = some (.mem m)) (s : State) :
    extraCycles op s = crossing (baseAddress m s) (effectiveAddress m s) s := by
  rw [extraCycles, h]

/-- What a write to an address costs: only an OAM-DMA takes cycles of its own (R50). -/
def writeCycles (a : Addr) (s : State) : Nat := if a = 0x4014#16 then s.cfg.oamDmaCycles else 0

theorem extraCycles_of_storeOf {r : Reg} {m : MemOperand} (h : storeOf op = some (r, m)) (s : State) :
    extraCycles op s = writeCycles (effectiveAddress m s) s := by
  cases op <;> cases h <;> rfl

theorem extraCycles_of_modifyOf {m : MemOperand} (h : modifyOf op = some m) (s : State) :
    extraCycles op s = writeCycles (effectiveAddress m s) s := by
  cases op with
  | inc | dec => cases h; rfl
  | asl tgt | lsr tgt | rol tgt | ror tgt => cases tgt <;> cases h; rfl
  | _ => cases h

theorem extraCycles_of_branchOf {f : Flag} {b : Bool} {off : Byte} (h : branchOf op = some (f, b, off)) (s : State) :
    extraCycles op s = if s.flag f = b then 1 + crossing s.pc (branchTarget off s) s else 0 := by
  cases op <;> cases h <;> rfl

/-! ## What each kind of instruction adds -/

/-- A completed bus write adds the cycles of an OAM-DMA where it starts one, and no others (R45, R50). -/
theorem busWrite_cycles {a : Addr} {v : Byte} {u : Unit} (h : busWrite a v s = .ok u t) :
    t.cycles = s.cycles + writeCycles a s := by
  by_cases ha : a = 0x4014#16
  · subst ha
    rw [busWrite_dma] at h
    rw [oamDma_ok h]
    rfl
  · rw [writeCycles, if_neg ha, Nat.add_zero]
    rcases busWrite_ok h with ⟨-, rfl⟩ | ⟨-, -, hport⟩ | ⟨hdma, -⟩ | ⟨-, -, -, -, rfl⟩
    · rfl
    · rcases ppuPortWrite_ok hport with ⟨-, rfl⟩ | ⟨-, rfl⟩ | ⟨-, rfl⟩ | ⟨-, rfl⟩ | ⟨-, rfl⟩ | ⟨-, rfl⟩ | ⟨-, -, rfl⟩ <;>
        rfl
    · exact absurd hdma ha
    · rfl

theorem runOp_reading_cycles {src : Source} (hop : readSource op = some src) (h : runOp op s = .ok () t) :
    t.cycles = s.cycles + extraCycles op s := by
  obtain ⟨v, u, hread, ht⟩ := runOp_reading_ok hop h
  rw [ht]
  cases src with
  | imm v =>
    cases hread
    rw [extraCycles_of_readSource_imm hop, Nat.add_zero]
  | mem m =>
    rw [readOperand_mem] at hread
    rw [extraCycles_of_readSource_mem hop, busRead_ok_ppu hread]
    rfl

theorem runOp_store_cycles {r : Reg} {m : MemOperand} (hop : storeOf op = some (r, m)) (h : runOp op s = .ok () t) :
    t.cycles = s.cycles + extraCycles op s := by
  rw [runOp_store hop] at h
  rw [extraCycles_of_storeOf hop, busWrite_cycles h]

/-- The read of a read-modify-write instruction adds no cycle (R88). -/
theorem runOp_modify_cycles {m : MemOperand} (hop : modifyOf op = some m) (h : runOp op s = .ok () t) :
    t.cycles = s.cycles + extraCycles op s := by
  obtain ⟨v, s1, w, s2, hread, hwrite, ht⟩ := runOp_modify_ok hop h
  rw [extraCycles_of_modifyOf hop, ht]
  change s2.cycles = _
  rw [busWrite_cycles hwrite, busRead_ok_ppu hread]
  rfl

/-- The rule of a branch, with the flag it tests and the value it branches on (43_control_flow R146, R148 to R155). -/
theorem runOp_branch {f : Flag} {b : Bool} {off : Byte} (hop : branchOf op = some (f, b, off)) (s : State) :
    runOp op s = branchIf (s.flag f == b) off s := by
  cases op with
  | bcc | bne | bpl | bvc => cases hop; rw [beq_false]; rfl
  | bcs | beq | bmi | bvs => cases hop; rw [beq_true]; rfl
  | _ => cases hop

theorem runOp_branch_cycles {f : Flag} {b : Bool} {off : Byte} (hop : branchOf op = some (f, b, off))
    (h : runOp op s = .ok () t) : t.cycles = s.cycles + extraCycles op s := by
  rw [runOp_branch hop, branchIf_eq] at h
  cases h
  rw [extraCycles_of_branchOf hop, pageCrossCycles_eq]
  simp only [beq_iff_eq]
  split <;> rfl

/-- Every other instruction adds no cycle: its accesses to the stack, the vectors and a pointer cost none (R72). -/
theorem runOp_other_cycles (hread : readSource op = none) (hstore : storeOf op = none) (hmodify : modifyOf op = none)
    (hbranch : branchOf op = none) (h : runOp op s = .ok () t) : t.cycles = s.cycles + extraCycles op s := by
  have hextra : extraCycles op s = 0 := by rw [extraCycles, hread, hstore, hmodify, hbranch]
  rw [hextra, Nat.add_zero]
  cases op with
  | lda | ldx | ldy | adc | sbc | and | ora | eor | cmp | cpx | cpy | bit => cases hread
  | sta | stx | sty => cases hstore
  | inc | dec => cases hmodify
  | bcc | bcs | beq | bne | bmi | bpl | bvc | bvs => cases hbranch
  | tax | tay | txa | tya | tsx | txs | inx | iny | dex | dey | clc | sec | cli | sei | cld | sed | clv | nop =>
    cases h
    rfl
  | asl tgt | lsr tgt | rol tgt | ror tgt =>
    cases tgt with
    | acc => cases h; rfl
    | mem => cases hmodify
  | jmp j =>
    cases j with
    | abs => cases h; rfl
    | ind ptr =>
      obtain ⟨w, u, htarget, ht⟩ := Res.bind_eq_ok.1 h
      cases ht
      rw [indirectTarget_ok htarget]
      rfl
  | jsr =>
    obtain ⟨_, u, hpush, ht⟩ := Res.bind_eq_ok.1 h
    cases (push16_eq _ s).symm.trans hpush
    cases ht
    rfl
  | rts =>
    obtain ⟨w, u, hpull, ht⟩ := Res.bind_eq_ok.1 h
    cases (pull16_eq s).symm.trans hpull
    cases ht
    rfl
  | pha | php => cases (push8_eq _ s).symm.trans h; rfl
  | pla | plp =>
    obtain ⟨w, u, hpull, ht⟩ := Res.bind_eq_ok.1 h
    cases (pull8_eq s).symm.trans hpull
    cases ht
    rfl
  | brk => cases (softwareTrap_eq s).symm.trans h; rfl
  | rti => cases (returnFromInterrupt_eq s).symm.trans h; rfl
  | illegal => cases h

/-- Settles O50: a mnemonic reads an operand, stores, modifies, branches, or adds no cycle. -/
theorem cyclesAdded : Obligations.CyclesAdded := by
  intro i s t h
  have hrun := exec_eq_next.1 h
  cases hread : readSource (opOf i) with
  | some src => exact runOp_reading_cycles hread hrun
  | none =>
  cases hstore : storeOf (opOf i) with
  | some p => exact runOp_store_cycles hstore hrun
  | none =>
  cases hmodify : modifyOf (opOf i) with
  | some m => exact runOp_modify_cycles hmodify hrun
  | none =>
  cases hbranch : branchOf (opOf i) with
  | some p => exact runOp_branch_cycles hbranch hrun
  | none => exact runOp_other_cycles hread hstore hmodify hbranch hrun

end Sys2Proof.Machine
end

section
/-! PROOFS. Loads, stores and transfers (40_load_store_transfer R100 to R112), and the fault of an access that ends its
instruction (60_exceptions R200, R215). -/

namespace Sys2Proof.Machine

/-! ## Loads and transfers (R101 to R103, R107 to R112) -/

/-- A register and Z, N from the same value: one new status byte, whichever register it is (10_state R27). -/
theorem setReg_setZN_spec (s : State) (v : Byte) :
    ∃ p', setsZN s.p p' v ∧ ∀ r, (s.setReg r v).setZN v = { s with p := p' }.setReg r v := by
  obtain ⟨p', hset, hp'⟩ := setZN_spec s v
  refine ⟨p', hp', fun r => ?_⟩
  have hswap : (s.setReg r v).setZN v = (s.setZN v).setReg r v := by cases r <;> rfl
  rw [hswap, hset]

/-- Settles O21: the status byte is the one `SetZN` leaves, which is the same for the three registers. -/
theorem loadsLoad : Obligations.LoadsLoad := by
  intro i src s hsrc
  obtain ⟨v, t, hread⟩ := (readOperand_completes src s).2 hsrc
  obtain ⟨p', hp', hset⟩ := setReg_setZN_spec t v
  have hp : t.p = s.p := by rw [(readOperand_ok hread).1]
  have hload (r : Reg) : ((readOperand src s).bind fun v s => .ok () ((s.setReg r v).setZN v))
      = .ok () ({ t with p := p' }.setReg r v) := by
    rw [hread, Res.bind_ok, hset]
  refine ⟨v, t, p', hread, hp ▸ hp', fun hi => ?_, fun hi => ?_, fun hi => ?_⟩
  · exact exec_eq_next.2 (hi ▸ hload .a)
  · exact exec_eq_next.2 (hi ▸ hload .x)
  · exact exec_eq_next.2 (hi ▸ hload .y)

/-- An instruction whose rule copies a value to a register and sets Z and N from it writes that register and P alone. -/
theorem exec_transfer {i : Instr} {s : State} {v : Byte} (r : Reg)
    (h : runOp (opOf i) s = .ok () ((s.setReg r v).setZN v)) :
    ∃ p', exec i s = .next ({ s with p := p' }.setReg r v) ∧ setsZN s.p p' v := by
  obtain ⟨p', hp', hset⟩ := setReg_setZN_spec s v
  exact ⟨p', exec_eq_next.2 (h.trans (by rw [hset])), hp'⟩

/-- Settles O25: five transfers are one register and Z, N from its new value; TXS is the register alone. -/
theorem transfersMove : Obligations.TransfersMove := fun _ =>
  ⟨exec_transfer .x rfl, exec_transfer .y rfl, exec_transfer .a rfl, exec_transfer .a rfl, exec_transfer .x rfl,
    rfl, rfl, rfl⟩

/-! ## Stores (R104 to R106) -/

/-- Settles O22: a store is its bus write, which completes where `busWritable` says and always in RAM. -/
theorem storesStore : Obligations.StoresStore := by
  intro i r m s hi
  rw [exec_store hi]
  refine ⟨fun hw => ?_, fun hram => ?_⟩
  · obtain ⟨t, hwrite⟩ := (busWriteCompletesExactly _ _ s).2 hw
    exact ⟨t, hwrite, by rw [hwrite, Res.outcome_ok]⟩
  · rw [busWrite_ram _ _ hram, Res.outcome_ok]
    rfl

/-! ## The access that faults (R100, R200, R215) -/

/-- An instruction ends with a fault exactly where its mnemonic's rule does. -/
theorem exec_eq_fault {i : Instr} {s : State} {f : Fault} :
    exec i s = .fault f ↔ ∃ t, runOp (opOf i) s = .fault f t := by
  rw [exec_eq_runOp, Res.outcome_eq_fault]

/-- A chain whose first part faults ends with that fault. -/
theorem Res.bind_eq_fault_of_left {α β : Type} {r : Res α} {k : α → State → Res β} {f : Fault} {t : State}
    (h : r = .fault f t) : r.bind k = .fault f t := by
  rw [h, Res.bind_fault]

/-- The fault of its operand read is all that a reading instruction answers (30_encoding R86). -/
theorem runOp_reading_fault {op : Op} {src : Source} {s t : State} {f : Fault} (hop : readSource op = some src)
    (h : readOperand src s = .fault f t) : runOp op s = .fault f t := by
  cases op with
  | lda | ldx | ldy | adc | sbc | and | ora | eor | cmp | cpx | cpy | bit =>
    cases hop
    exact Res.bind_eq_fault_of_left h
  | _ => cases hop

/-- The shape of a read-modify-write instruction: a read, then a write of a byte computed from what was read to the same
address, then the rest (30_encoding R86, 42_shift_rotate R135). -/
theorem runOp_modify_shape {op : Op} {m : MemOperand} (hop : modifyOf op = some m) (s : State) :
    ∃ (w : Byte → State → Byte) (k : Byte → State → Unit → State → Res Unit),
      runOp op s = (busRead (effectiveAddress m s) s).bind fun v t =>
        (busWrite (effectiveAddress m s) (w v t) t).bind (k v t) := by
  cases op with
  | inc | dec => cases hop; exact ⟨_, _, rfl⟩
  | asl tgt | lsr tgt | rol tgt | ror tgt =>
    cases tgt with
    | acc => cases hop
    | mem => cases hop; exact ⟨_, _, rfl⟩
  | _ => cases hop

theorem runOp_modify_read_fault {op : Op} {m : MemOperand} {s t : State} {f : Fault} (hop : modifyOf op = some m)
    (h : busRead (effectiveAddress m s) s = .fault f t) : runOp op s = .fault f t := by
  obtain ⟨w, k, hrun⟩ := runOp_modify_shape hop s
  rw [hrun, h, Res.bind_fault]

/-- After its read completes, a read-modify-write instruction ends with the fault of its write, whatever byte it writes. -/
theorem runOp_modify_write_fault {op : Op} {m : MemOperand} {s t : State} {v : Byte} {f : Fault}
    (hop : modifyOf op = some m) (hread : busRead (effectiveAddress m s) s = .ok v t)
    (hwrite : ∀ b, ∃ u, busWrite (effectiveAddress m s) b t = .fault f u) : ∃ u, runOp op s = .fault f u := by
  obtain ⟨w, k, hrun⟩ := runOp_modify_shape hop s
  obtain ⟨u, hu⟩ := hwrite (w v t)
  exact ⟨u, by rw [hrun, hread, Res.bind_ok, hu, Res.bind_fault]⟩

/-- A pointer whose second byte cannot be read ends with that read's fault (30_encoding R83). -/
theorem indirectTarget_second_fault {ptr : Addr} {l : Byte} {s t u : State} {f : Fault} (hlow : busRead ptr s = .ok l t)
    (hhigh : busRead (word (lo ptr + 1#8) (hi ptr)) t = .fault f u) : indirectTarget ptr s = .fault f u := by
  rw [indirectTarget, hlow, Res.bind_ok, hhigh, Res.bind_fault]

/-- The fault of its pointer is all that JMP Indirect answers (43_control_flow R156). -/
theorem runOp_jmpInd_fault {ptr : Addr} {s t : State} {f : Fault} (h : indirectTarget ptr s = .fault f t) :
    runOp (.jmp (.ind ptr)) s = .fault f t :=
  Res.bind_eq_fault_of_left h

/-- Settles O24: nothing of an instruction runs after the access that faults, in each of the four kinds. -/
theorem faultingAccessEndsInstruction : Obligations.FaultingAccessEndsInstruction := by
  intro i s t f
  refine ⟨fun src hi h => ?_, fun r m hi h => ?_, fun m hi => ⟨fun h => ?_, fun v hread hwrite => ?_⟩,
    fun ptr hi => ⟨fun h => ?_, fun l u hlow hhigh => ?_⟩⟩ <;> refine exec_eq_fault.2 ?_
  · exact ⟨t, runOp_reading_fault hi h⟩
  · exact ⟨t, (runOp_store hi s).trans h⟩
  · exact ⟨t, runOp_modify_read_fault hi h⟩
  · exact runOp_modify_write_fault hi hread hwrite
  · exact ⟨t, hi ▸ runOp_jmpInd_fault (Res.bind_eq_fault_of_left h)⟩
  · exact ⟨u, hi ▸ runOp_jmpInd_fault (indirectTarget_second_fault hlow hhigh)⟩

end Sys2Proof.Machine
end

section
/-! PROOFS. Arithmetic, logic, compare, bit test, increment and decrement (41_arithmetic_logic R115 to R133): the adder as
numbers, the status byte a row of flag writes leaves, and one lemma for each shape of instruction. -/

namespace Sys2Proof.Machine

/-! ## The adder (R115, R116) -/

/-- The mask of R115 keeps bit 7 alone. -/
theorem and_signMask_ne_zero (b : Byte) : ((b &&& 0x80#8) != 0#8) = b.getLsbD 7 := by
  rw [show b &&& 0x80#8 = if b.getLsbD 7 then 0x80#8 else 0#8 from BitVec.and_twoPow b 7]
  cases b.getLsbD 7 <;> rfl

theorem addWithCarry_carry (a m : Byte) (c : Bool) :
    (addWithCarry a m c).carry = decide (a.toNat + m.toNat + bitNat c > 255) := rfl

/-- The carry into the adder is a bit. -/
theorem bitNat_le_one (c : Bool) : bitNat c ≤ 1 := by cases c <;> decide

/-- The overflow of two operands of one sign with a result of the other (R115). -/
theorem addWithCarry_overflow_iff_signs (a m : Byte) (c : Bool) : (addWithCarry a m c).overflow = true ↔
    a.getLsbD 7 = m.getLsbD 7 ∧ (addWithCarry a m c).result.getLsbD 7 ≠ a.getLsbD 7 := by
  have hbit : (addWithCarry a m c).overflow =
      ((m ^^^ (addWithCarry a m c).result) &&& ((addWithCarry a m c).result ^^^ a)).getLsbD 7 := and_signMask_ne_zero _
  rw [hbit, BitVec.getLsbD_and, BitVec.getLsbD_xor, BitVec.getLsbD_xor]
  cases a.getLsbD 7 <;> cases m.getLsbD 7 <;> cases (addWithCarry a m c).result.getLsbD 7 <;> decide

/-- The sign bit of a byte as a number. -/
theorem getLsbD_seven (b : Byte) : b.getLsbD 7 = decide (128 ≤ b.toNat) := BitVec.msb_eq_decide b

/-- A byte read as a signed number (R118). -/
theorem toInt_byte (b : Byte) : b.toInt = if 128 ≤ b.toNat then (b.toNat : Int) - 256 else b.toNat := by
  rw [BitVec.toInt_eq_msb_cond, BitVec.msb_eq_decide]
  simp

/-- The overflow as the signed sum outside -128 to 127 (R115, R118). -/
theorem addWithCarry_overflow (a m : Byte) (c : Bool) : (addWithCarry a m c).overflow =
    decide (a.toInt + m.toInt + bitNat c < -128 ∨ 127 < a.toInt + m.toInt + bitNat c) := by
  have ha := a.isLt
  have hm := m.isLt
  have hc := bitNat_le_one c
  rw [Bool.eq_iff_iff, addWithCarry_overflow_iff_signs, decide_eq_true_iff]
  simp only [getLsbD_seven, addWithCarry_result, toInt_byte, decide_eq_decide, ne_eq]
  split <;> split <;> omega

/-- Settles O26: the three forms of the overflow meet in the sign bits. -/
theorem adderIsExact : Obligations.AdderIsExact := by
  intro a m c
  refine ⟨addWithCarry_result a m c, ?_, addWithCarry_overflow_iff_signs a m c, ?_, bne_iff_ne⟩
  · rw [addWithCarry_carry, decide_eq_true_iff]
  · rw [addWithCarry_overflow, decide_eq_true_iff]

/-- The complement of a byte as a number (R116). -/
theorem toNat_not_byte (m : Byte) : (~~~m).toNat = 255 - m.toNat := BitVec.toNat_not

/-- The complement of a byte as a signed number (R116). -/
theorem toInt_not_byte (m : Byte) : (~~~m).toInt = -m.toInt - 1 := by
  have hm := m.isLt
  rw [toInt_byte, toInt_byte, toNat_not_byte]
  split <;> split <;> omega

/-- Adding the complement subtracts (R116). -/
theorem addWithCarry_not_result (a m : Byte) (c : Bool) :
    (addWithCarry a (~~~m) c).result = a - m - BitVec.ofNat 8 (1 - bitNat c) := by
  apply BitVec.eq_of_toNat_eq
  have hm := m.isLt
  have hc := bitNat_le_one c
  rw [addWithCarry_result, toNat_not_byte, BitVec.toNat_sub, BitVec.toNat_sub, BitVec.toNat_ofNat]
  omega

/-- The carry of a subtraction is the absence of a borrow (R116). -/
theorem addWithCarry_not_carry (a m : Byte) (c : Bool) :
    (addWithCarry a (~~~m) c).carry = decide (m.toNat + (1 - bitNat c) ≤ a.toNat) := by
  have hm := m.isLt
  have hc := bitNat_le_one c
  rw [addWithCarry_carry, toNat_not_byte, decide_eq_decide]
  omega

/-- The overflow of a subtraction is the signed difference outside -128 to 127 (R116, R118). -/
theorem addWithCarry_not_overflow (a m : Byte) (c : Bool) : (addWithCarry a (~~~m) c).overflow =
    decide (a.toInt - m.toInt - (1 - bitNat c : Nat) < -128 ∨ 127 < a.toInt - m.toInt - (1 - bitNat c : Nat)) := by
  have hsum : a.toInt + (~~~m).toInt + bitNat c = a.toInt - m.toInt - (1 - bitNat c : Nat) := by
    have hc := bitNat_le_one c
    rw [toInt_not_byte]
    omega
  rw [addWithCarry_overflow, hsum]

/-! ## Flags written one after another (10_state R20) -/

theorem flagsSet_nil (p : Byte) : flagsSet p p [] := fun _ => rfl

/-- A flag written after others adds its value to theirs, in front. -/
theorem flagsSet.setFlag {p : Byte} {s : State} {changes : List (Flag × Bool)} (h : flagsSet p s.p changes) (f : Flag)
    (v : Bool) : flagsSet p (s.setFlag f v).p ((f, v) :: changes) := by
  intro g
  rw [State.setFlag_p, flagOf_setBit, h g, List.lookup_cons]
  by_cases hg : g = f
  · simp [hg]
  · rw [if_neg hg, beq_eq_false_iff_ne.2 hg]

/-- The order of a list of flags does not matter, only the value it holds for each flag. -/
theorem flagsSet.congr {p p' : Byte} {l l' : List (Flag × Bool)} (h : flagsSet p p' l)
    (hl : ∀ f, l.lookup f = l'.lookup f) : flagsSet p p' l' :=
  fun f => hl f ▸ h f

/-- The four flags that come out of the adder (R115, R119). -/
def Sum8.flags (sum : Sum8) : List (Flag × Bool) :=
  [(.carry, sum.carry), (.zero, sum.result == 0#8), (.overflow, sum.overflow), (.negative, sum.result.getLsbD 7)]

theorem flagsSet_sum (sum : Sum8) (s : State) : flagsSet s.p
    (((s.setFlag .carry sum.carry).setFlag .overflow sum.overflow).setZN sum.result).p sum.flags := by
  have hwrites := ((((flagsSet_nil s.p).setFlag .carry sum.carry).setFlag .overflow sum.overflow).setFlag .zero
    (sum.result == 0#8)).setFlag .negative sum.result.msb
  exact hwrites.congr fun f => by cases f <;> rfl

/-- ADC and SBC write A and P alone, in P the adder's four flags (R119, R120). -/
theorem addToA_spec (m : Byte) (s : State) :
    ∃ p', s.addToA m = { s with a := (addWithCarry s.a m (s.flag .carry)).result, p := p' }
      ∧ flagsSet s.p p' (addWithCarry s.a m (s.flag .carry)).flags :=
  ⟨_, rfl, flagsSet_sum _ (s.setA _)⟩

/-- `Compare` writes P alone, in it Z, C and N (R117). -/
theorem compare_spec (reg m : Byte) (s : State) :
    ∃ p', s.compare reg m = { s with p := p' }
      ∧ flagsSet s.p p' [(.zero, reg == m), (.carry, decide (m.toNat ≤ reg.toNat)),
          (.negative, (reg - m).getLsbD 7)] := by
  refine ⟨(s.compare reg m).p, rfl, ?_⟩
  have hwrites := (((flagsSet_nil s.p).setFlag .zero (reg == m)).setFlag .carry (decide (m.toNat ≤ reg.toNat))).setFlag
    .negative (reg - m).msb
  exact hwrites.congr fun f => by cases f <;> rfl

/-- BIT writes P alone, in it Z, N and V (R127). -/
theorem bitTest_spec (m : Byte) (s : State) :
    ∃ p', s.bitTest m = { s with p := p' }
      ∧ flagsSet s.p p' [(.zero, (s.a &&& m) == 0#8), (.negative, m.getLsbD 7), (.overflow, m.getLsbD 6)] := by
  refine ⟨(s.bitTest m).p, rfl, ?_⟩
  have hwrites := (((flagsSet_nil s.p).setFlag .zero ((s.a &&& m) == 0#8)).setFlag .negative (m.getLsbD 7)).setFlag
    .overflow (m.getLsbD 6)
  exact hwrites.congr fun f => by cases f <;> rfl

/-! ## Instructions that read an operand (30_encoding R86) -/

/-- A completed operand read leaves the registers and P (30_encoding R74, R86). -/
theorem readOperand_keeps {src : Source} {s t : State} {v : Byte} (h : readOperand src s = .ok v t) :
    t.p = s.p ∧ ∀ r, t.reg r = s.reg r := by
  rw [(readOperand_ok h).1]
  exact ⟨rfl, fun r => State.reg_update s r ..⟩

/-- An instruction whose rule changes the state by what it reads completes where its operand can be read. -/
theorem exec_reading {i : Instr} {src : Source} {s t : State} {v : Byte} {g : Byte → State → State}
    (hrun : runOp (opOf i) s = (readOperand src s).bind fun m u => .ok () (g m u)) (hread : readOperand src s = .ok v t) :
    exec i s = .next (g v t) := by
  rw [exec_eq_runOp, hrun, hread, Res.bind_ok, Res.outcome_ok]

/-- An instruction that feeds `g` of its operand to the adder, for every form whose operand can be read (R119, R120). -/
theorem exec_addToA {i : Instr} {src : Source} {s : State} (g : Byte → Byte)
    (hrun : runOp (opOf i) s = (readOperand src s).bind fun m u => .ok () (u.addToA (g m)))
    (hsrc : sourceReadable src s = true) :
    ∃ v t p', readOperand src s = .ok v t
      ∧ exec i s = .next { t with a := (addWithCarry s.a (g v) (s.flag .carry)).result, p := p' }
      ∧ flagsSet s.p p' (addWithCarry s.a (g v) (s.flag .carry)).flags := by
  obtain ⟨v, t, hread⟩ := (readOperand_completes src s).2 hsrc
  obtain ⟨hp, hreg⟩ := readOperand_keeps hread
  have ha : t.a = s.a := hreg .a
  have hc : t.flag .carry = s.flag .carry := congrArg (flagOf .carry) hp
  obtain ⟨p', hadd, hflags⟩ := addToA_spec (g v) t
  rw [ha, hc] at hadd hflags
  exact ⟨v, t, p', hread, (exec_reading hrun hread).trans (by rw [hadd]), hp ▸ hflags⟩

/-- Settles O27: the operand itself goes to the adder, and Z is the exact sum's low 8 bits compared with 0. -/
theorem adcAdds : Obligations.AdcAdds := by
  intro i src s hi hsrc
  obtain ⟨v, t, p', hread, hexec, hflags⟩ := exec_addToA (fun m => m) (by rw [hi]; rfl) hsrc
  have hzero : ((addWithCarry s.a v (s.flag .carry)).result == 0#8)
      = decide ((s.a.toNat + v.toNat + bitNat (s.flag .carry)) % 256 = 0) := by
    rw [← addWithCarry_result]
    exact decide_eq_decide.2 BitVec.toNat_inj.symm
  rw [Sum8.flags, addWithCarry_carry, hzero, addWithCarry_overflow] at hflags
  exact ⟨v, t, _, p', hread, hexec, addWithCarry_result .., hflags⟩

/-- Settles O28: the operand's complement goes to the same adder. -/
theorem sbcSubtracts : Obligations.SbcSubtracts := by
  intro i src s hi hsrc
  obtain ⟨v, t, p', hread, hexec, hflags⟩ := exec_addToA (fun m => ~~~m) (by rw [hi]; rfl) hsrc
  rw [Sum8.flags, addWithCarry_not_carry, addWithCarry_not_overflow] at hflags
  exact ⟨v, t, _, p', hread, hexec, addWithCarry_not_result .., hflags⟩

/-- An instruction that combines A with its operand and sets Z and N from the result writes A and P alone. -/
theorem exec_combine {i : Instr} {src : Source} {s t : State} {v : Byte} (g : Byte → Byte → Byte)
    (hrun : runOp (opOf i) s = (readOperand src s).bind fun m u => .ok () ((u.setA (g u.a m)).setZN (g u.a m)))
    (hread : readOperand src s = .ok v t) :
    ∃ p', exec i s = .next { t with a := g s.a v, p := p' } ∧ setsZN s.p p' (g s.a v) := by
  obtain ⟨hp, hreg⟩ := readOperand_keeps hread
  have ha : t.a = s.a := hreg .a
  obtain ⟨p', hp', hset⟩ := setReg_setZN_spec t (g s.a v)
  rw [hp] at hp'
  refine ⟨p', (exec_reading hrun hread).trans ?_, hp'⟩
  rw [ha]
  exact congrArg Host.Outcome.next (hset .a)

/-- Settles O29: the three instructions combine A with the operand by their own bitwise operation. -/
theorem logicCombines : Obligations.LogicCombines := by
  intro i src s hsrc
  obtain ⟨v, t, hread⟩ := (readOperand_completes src s).2 hsrc
  refine ⟨v, t, hread, fun hi => ?_, fun hi => ?_, fun hi => ?_⟩
  · exact exec_combine (fun a m => a &&& m) (by rw [hi]; rfl) hread
  · exact exec_combine (fun a m => a ||| m) (by rw [hi]; rfl) hread
  · exact exec_combine (fun a m => a ^^^ m) (by rw [hi]; rfl) hread

/-- The three compares run `Compare` on the register the mnemonic names (R124 to R126). -/
theorem runOp_compare {op : Op} {src : Source} {r : Reg}
    (hop : (op = .cmp src ∧ r = .a) ∨ (op = .cpx src ∧ r = .x) ∨ (op = .cpy src ∧ r = .y)) (s : State) :
    runOp op s = (readOperand src s).bind fun m u => .ok () (u.compare (u.reg r) m) := by
  rcases hop with ⟨rfl, rfl⟩ | ⟨rfl, rfl⟩ | ⟨rfl, rfl⟩ <;> rfl

/-- Bit 7 of a difference as a number (R117). -/
theorem getLsbD_seven_sub (a m : Byte) : (a - m).getLsbD 7 = decide (128 ≤ (a.toNat + 256 - m.toNat) % 256) := by
  have hm := m.isLt
  rw [getLsbD_seven, BitVec.toNat_sub, decide_eq_decide]
  omega

/-- Settles O30: one rule over the compared register, which the operand read leaves. -/
theorem comparesCompare : Obligations.ComparesCompare := by
  intro i src s r hsrc hi
  obtain ⟨v, t, hread⟩ := (readOperand_completes src s).2 hsrc
  obtain ⟨hp, hreg⟩ := readOperand_keeps hread
  obtain ⟨p', hcompare, hflags⟩ := compare_spec (s.reg r) v t
  rw [hp, getLsbD_seven_sub] at hflags
  refine ⟨v, t, p', hread, (exec_reading (runOp_compare hi s) hread).trans ?_, hflags⟩
  rw [hreg, hcompare]

/-- Settles O31: the flags come from the operand and from A, which the operand read leaves. -/
theorem bitTests : Obligations.BitTests := by
  intro i m s hi hea
  obtain ⟨v, t, hread⟩ := (readOperand_completes (.mem m) s).2 hea
  obtain ⟨hp, hreg⟩ := readOperand_keeps hread
  have ha : t.a = s.a := hreg .a
  obtain ⟨p', htest, hflags⟩ := bitTest_spec v t
  rw [hp, ha] at hflags
  have hrun : runOp (opOf i) s = (readOperand (.mem m) s).bind fun v u => .ok () (u.bitTest v) := by rw [hi]; rfl
  exact ⟨v, t, p', hread, (exec_reading hrun hread).trans (by rw [htest]), hflags⟩

/-! ## Counting in memory and in the index registers (R128 to R133) -/

theorem toNat_add_one (v : Byte) : (v + 1#8).toNat = (v.toNat + 1) % 256 := BitVec.toNat_add v 1#8

theorem toNat_sub_one (v : Byte) : (v - 1#8).toNat = (v.toNat + 255) % 256 := by
  rw [BitVec.toNat_sub, BitVec.toNat_ofNat]
  omega

/-- A read-modify-write instruction completes where its read and its write do, with Z and N from the byte written (30_encoding
R86). -/
theorem exec_modify {i : Instr} {f : Byte → Byte} {m : MemOperand} {s t : State} {v : Byte}
    (hrun : runOp (opOf i) s = modifyMemory f m s) (hread : busRead (effectiveAddress m s) s = .ok v t)
    (hw : busWritable (effectiveAddress m s) (f v) t = true) :
    ∃ u p', busWrite (effectiveAddress m s) (f v) t = .ok () u ∧ exec i s = .next { u with p := p' }
      ∧ setsZN s.p p' (f v) := by
  obtain ⟨u, hwrite⟩ := (busWriteCompletesExactly _ _ t).2 hw
  obtain ⟨p', hset, hp'⟩ := setZN_spec u (f v)
  have hp : u.p = s.p := by rw [busWrite_ok_parts hwrite, busRead_ok_ppu hread]
  refine ⟨u, p', hwrite, exec_eq_next.2 ?_, hp ▸ hp'⟩
  rw [hrun, modifyMemory, hread, Res.bind_ok, hwrite, Res.bind_ok, hset]

/-- Settles O32: the byte written is the one its number names. -/
theorem incAndDecModifyMemory : Obligations.IncAndDecModifyMemory := by
  rintro i m s v r t (⟨hi, hr⟩ | ⟨hi, hr⟩) hread hw
  · obtain rfl : r = v + 1#8 := BitVec.eq_of_toNat_eq (hr.trans (toNat_add_one v).symm)
    exact exec_modify (f := fun v => v + 1#8) (by rw [hi]; rfl) hread hw
  · obtain rfl : r = v - 1#8 := BitVec.eq_of_toNat_eq (hr.trans (toNat_sub_one v).symm)
    exact exec_modify (f := fun v => v - 1#8) (by rw [hi]; rfl) hread hw

/-- An instruction that moves a value of number `n` to a register and sets Z and N from it writes that register and P alone. -/
theorem exec_count {i : Instr} {s : State} {v : Byte} {n : Nat} (r : Reg)
    (hrun : runOp (opOf i) s = .ok () ((s.setReg r v).setZN v)) (hv : v.toNat = n) :
    ∃ w p', exec i s = .next ({ s with p := p' }.setReg r w) ∧ w.toNat = n ∧ setsZN s.p p' w := by
  obtain ⟨p', hexec, hp'⟩ := exec_transfer r hrun
  exact ⟨v, p', hexec, hv, hp'⟩

/-- Settles O33: each writes its own register and Z, N from the new value. -/
theorem indexRegistersCount : Obligations.IndexRegistersCount := fun s =>
  ⟨exec_count .x rfl (toNat_add_one s.x), exec_count .y rfl (toNat_add_one s.y), exec_count .x rfl (toNat_sub_one s.x),
    exec_count .y rfl (toNat_sub_one s.y), rfl, rfl⟩

end Sys2Proof.Machine
end

section
/-! PROOFS. Shifts and rotates (42_shift_rotate R135 to R139): the four data paths as numbers, and one lemma for each of the
two targets. -/

namespace Sys2Proof.Machine

/-! ## The data paths (R136 to R139) -/

theorem setBit_false_of_clear {b : Byte} {k : Nat} (hk : k < 8) (hb : b.getLsbD k = false) : setBit b k false = b := by
  apply BitVec.eq_of_getLsbD_eq
  intro j _
  rw [getLsbD_setBit b k j false hk]
  split
  next hj => rw [hj, hb]
  next => rfl

/-- A bit written where the byte holds 0 adds its place value. -/
theorem toNat_setBit_of_clear {b : Byte} {k : Nat} (hk : k < 8) (hb : b.getLsbD k = false) (v : Bool) :
    (setBit b k v).toNat = b.toNat + 2 ^ k * bitNat v := by
  cases v with
  | false => rw [setBit_false_of_clear hk hb]; rfl
  | true =>
    have hdisjoint : b &&& BitVec.twoPow 8 k = 0#8 := by rw [BitVec.and_twoPow, hb]; rfl
    have hplace : (BitVec.twoPow 8 k).toNat = 2 ^ k := BitVec.toNat_twoPow_of_lt hk
    calc (setBit b k true).toNat
      _ = (b + BitVec.twoPow 8 k).toNat := congrArg BitVec.toNat (BitVec.add_eq_or_of_and_eq_zero _ _ hdisjoint).symm
      _ = b.toNat + 2 ^ k * bitNat true := by
        rw [BitVec.toNat_add_of_and_eq_zero hdisjoint, hplace, bitNat, if_pos rfl, Nat.mul_one]

theorem toNat_shiftLeft_one (m : Byte) : (m <<< 1).toNat = 2 * m.toNat % 256 := by
  rw [BitVec.toNat_shiftLeft, Nat.shiftLeft_eq, Nat.mul_comm]

theorem toNat_ushiftRight_one (m : Byte) : (m >>> 1).toNat = m.toNat / 2 := by
  rw [BitVec.toNat_ushiftRight, Nat.shiftRight_eq_div_pow]

theorem shiftRol_result (m : Byte) (c : Bool) : (shiftRol m c).result.toNat = 2 * m.toNat % 256 + bitNat c := by
  have hclear : (m <<< 1).getLsbD 0 = false := by simp
  rw [shiftRol, toNat_setBit_of_clear (by decide) hclear, toNat_shiftLeft_one, Nat.pow_zero, Nat.one_mul]

theorem shiftRor_result (m : Byte) (c : Bool) : (shiftRor m c).result.toNat = m.toNat / 2 + 128 * bitNat c := by
  have hclear : (m >>> 1).getLsbD 7 = false := by simp
  rw [shiftRor, toNat_setBit_of_clear (by decide) hclear, toNat_ushiftRight_one, show 2 ^ 7 = 128 from rfl]

/-! ## The two targets (R135) -/

/-- The flags a shift or rotate leaves: the bit shifted out, and Z and N of the result (R135). -/
def Shifted.flags (r : Shifted) : List (Flag × Bool) :=
  [(.carry, r.carry), (.zero, decide (r.result = 0#8)), (.negative, r.result.getLsbD 7)]

/-- The last writes of a shift change P alone, in it C, Z and N. -/
theorem setCarry_setZN_spec (r : Shifted) (s : State) :
    ∃ p', (s.setFlag .carry r.carry).setZN r.result = { s with p := p' } ∧ flagsSet s.p p' r.flags := by
  refine ⟨_, rfl, ?_⟩
  have hwrites := (((flagsSet_nil s.p).setFlag .carry r.carry).setFlag .zero (r.result == 0#8)).setFlag .negative
    r.result.msb
  exact hwrites.congr fun f => by cases f <;> rfl

/-- The Accumulator form always completes and has no bus access. -/
theorem exec_shift_acc {i : Instr} {f : Byte → Bool → Shifted} {s : State}
    (hrun : runOp (opOf i) s = shiftOperand f .acc s) :
    ∃ p', exec i s = .next { s with a := (f s.a (s.flag .carry)).result, p := p' }
      ∧ flagsSet s.p p' (f s.a (s.flag .carry)).flags := by
  obtain ⟨p', hset, hflags⟩ := setCarry_setZN_spec (f s.a (s.flag .carry)) (s.setA (f s.a (s.flag .carry)).result)
  exact ⟨p', exec_eq_next.2 (hrun.trans (congrArg (Res.ok ()) hset)), hflags⟩

/-- A memory form completes where its read and its write at the same address do; the read leaves the carry it rotates in. -/
theorem exec_shift_mem {i : Instr} {f : Byte → Bool → Shifted} {m : MemOperand} {s t : State} {v : Byte}
    (hrun : runOp (opOf i) s = shiftOperand f (.mem m) s) (hread : busRead (effectiveAddress m s) s = .ok v t)
    (hw : busWritable (effectiveAddress m s) (f v (s.flag .carry)).result t = true) :
    ∃ u p', busWrite (effectiveAddress m s) (f v (s.flag .carry)).result t = .ok () u
      ∧ exec i s = .next { u with p := p' } ∧ flagsSet s.p p' (f v (s.flag .carry)).flags := by
  obtain ⟨u, hwrite⟩ := (busWriteCompletesExactly _ _ t).2 hw
  obtain ⟨p', hset, hflags⟩ := setCarry_setZN_spec (f v (s.flag .carry)) u
  have hpt : t.p = s.p := by rw [busRead_ok_ppu hread]
  have hpu : u.p = s.p := by rw [busWrite_ok_parts hwrite, hpt]
  have hcarry : t.flag .carry = s.flag .carry := congrArg (flagOf .carry) hpt
  refine ⟨u, p', hwrite, exec_eq_next.2 ?_, hpu ▸ hflags⟩
  simp only [hrun, shiftOperand, hread, Res.bind_ok, hcarry, hwrite, hset]

/-- Settles O34: the four data paths are arithmetic on bytes, and the four mnemonics are one rule over them. -/
theorem shiftsShift : Obligations.ShiftsShift := by
  refine ⟨fun m c => ⟨⟨toNat_shiftLeft_one m, rfl⟩, ⟨toNat_ushiftRight_one m, rfl⟩, ⟨shiftRol_result m c, rfl⟩,
    ⟨shiftRor_result m c, rfl⟩⟩, fun i f tgt s hi => ?_⟩
  have hrun : runOp (opOf i) s = shiftOperand f tgt s := by
    rcases hi with ⟨hi, rfl⟩ | ⟨hi, rfl⟩ | ⟨hi, rfl⟩ | ⟨hi, rfl⟩ <;> rw [hi] <;> rfl
  constructor
  · rintro rfl
    exact exec_shift_acc hrun
  · rintro m v t rfl hread hw
    exact exec_shift_mem hrun hread hw

end Sys2Proof.Machine
end

section
/-! PROOFS. Branches and subroutines (43_control_flow R146 to R155, R157, R158): one lemma for the rule of the eight branches,
and JSR and RTS as a word pushed and a word pulled. -/

namespace Sys2Proof.Machine

/-! ## Branches (R146 to R155) -/

/-- A branch's target is PC moved by its signed offset, in the address space's wrap (R82). -/
theorem branchTarget_toInt (off : Byte) (s : State) :
    (branchTarget off s).toInt = (s.pc.toInt + off.toInt).bmod 65536 := by
  rw [branchTarget, BitVec.toInt_add, sext16, BitVec.toInt_signExtend_of_le (by decide)]

/-- A branch always completes; where its flag has the value it branches on, PC and the cycles change (R146, R147). -/
theorem exec_branch {i : Instr} {f : Flag} {b : Bool} {off : Byte} (hop : branchOf (opOf i) = some (f, b, off))
    (s : State) : exec i s = .next (if s.flag f = b then
      { s with pc := branchTarget off s, cycles := s.cycles + 1 + crossing s.pc (branchTarget off s) s } else s) := by
  refine exec_eq_next.2 ?_
  rw [runOp_branch hop, branchIf_eq, pageCrossCycles_eq]
  simp only [beq_iff_eq, Nat.add_assoc]
  rfl

/-- Settles O35: the eight rows differ in their opcode and in what `branchOf` says of them. -/
theorem branchesBranch : Obligations.BranchesBranch := by
  intro i opcode f b off s hi
  have hrow : encode i = [opcode, off] ∧ baseCycles i = 2 ∧ branchOf (opOf i) = some (f, b, off) := by
    fin_cases hi <;> exact ⟨rfl, rfl, rfl⟩
  obtain ⟨hencode, hcycles, hop⟩ := hrow
  exact ⟨hencode, hcycles, _, branchTarget_toInt off s, exec_branch hop s⟩

/-! ## Subroutines (R157, R158) -/

/-- JSR pushes the address of its last byte, where PC stands less 1, and jumps (R157). -/
theorem exec_jsr (w : Addr) (s : State) : exec (.jsr w) s = .next ((s.pushed16 (s.pc - 1#16)).setPC w) := by
  refine exec_eq_next.2 ?_
  change (push16 (s.pc - 1#16) s).bind _ = _
  rw [push16_eq, Res.bind_ok]

/-- RTS goes to the address after the one it pulls (R158). -/
theorem exec_rts (s : State) : exec .rts s = .next ((s.setSP (s.sp + 2#8)).setPC
    (word (s.ram.read (256 + (s.sp + 1#8).toNat)) (s.ram.read (256 + (s.sp + 2#8).toNat)) + 1#16)) := by
  refine exec_eq_next.2 ?_
  change (pull16 s).bind _ = _
  rw [pull16_eq, Res.bind_ok]

/-- RTS with SP and the RAM as a push of `w` left them goes to the address after `w`, with SP as before the push. -/
theorem exec_rts_of_pushed16 {w : Addr} {s u : State} (hw : s.ram.wf ramSize = true) (hsp : u.sp = (s.pushed16 w).sp)
    (hram : u.ram = (s.pushed16 w).ram) : exec .rts u = .next ((u.setSP s.sp).setPC (w + 1#16)) := by
  have hlo : s.sp - 2#8 + 1#8 = s.sp - 1#8 := by bv_omega
  have hhi : s.sp - 2#8 + 2#8 = s.sp := by bv_omega
  obtain ⟨hreadHi, hreadLo⟩ := State.pushed16_read (w := w) hw
  rw [exec_rts, hsp, hram, State.pushed16_sp, hlo, hhi, hreadHi, hreadLo, word_lo_hi]

/-- Settles O37: after a JSR the word on the stack is PC - 1, so RTS goes to PC. -/
theorem jsrAndRts : Obligations.JsrAndRts := by
  intro w s
  refine ⟨exec_jsr w s, exec_rts s, fun hw t u ht hsp hram => ?_, rfl, rfl, rfl, rfl⟩
  cases (exec_jsr w s).symm.trans ht
  have hback : s.pc - 1#16 + 1#16 = s.pc := BitVec.sub_add_cancel _ _
  rw [exec_rts_of_pushed16 hw hsp hram, hback]
  rfl

end Sys2Proof.Machine
end

section
/-! PROOFS. Stack, flags and system (44_stack_flags_system R165 to R176, R185, R186): each instruction as the equation of the
shared operation it runs, the two status bytes with forced bits 4 and 5, and the stack a BRK leaves for RTI. -/

namespace Sys2Proof.Machine

/-! ## The forced bits 4 and 5 (10_state R23) -/

theorem flagsSet_statusWithBreak (p : Byte) : flagsSet p (statusWithBreak p) [(.brk, true), (.unused, true)] := by
  intro f
  rw [flagOf_statusWithBreak]
  cases f <;> rfl

theorem flagsSet_statusWithoutBreak (p : Byte) : flagsSet p (statusWithoutBreak p) [(.brk, false), (.unused, true)] := by
  intro f
  rw [flagOf_statusWithoutBreak]
  cases f <;> rfl

/-- A status byte with `B = 0` and `U = 1` survives being pushed by BRK or PHP and installed by RTI or PLP (R26). -/
theorem statusWithoutBreak_statusWithBreak {s : State} (h : breakClearUnusedSet s = true) :
    statusWithoutBreak (statusWithBreak s.p) = s.p := by
  obtain ⟨hbrk, hunused⟩ := (breakClearUnusedSet_iff s).1 h
  refine flags_ext fun f => ?_
  rw [flagOf_statusWithoutBreak, flagOf_statusWithBreak]
  by_cases hf : f = .brk
  · rw [if_pos hf, hf]
    exact hbrk.symm
  · by_cases hu : f = .unused
    · rw [if_neg hf, if_pos hu, hu]
      exact hunused.symm
    · rw [if_neg hf, if_neg hu, if_neg (not_or.2 ⟨hf, hu⟩)]

/-! ## Pushes and pulls of a byte (R165 to R168) -/

theorem exec_pha (s : State) : exec .pha s = .next ((s.writeRam (256 + s.sp.toNat) s.a).setSP (s.sp - 1#8)) :=
  exec_eq_next.2 (push8_eq s.a s)

theorem exec_php (s : State) :
    exec .php s = .next ((s.writeRam (256 + s.sp.toNat) (statusWithBreak s.p)).setSP (s.sp - 1#8)) :=
  exec_eq_next.2 (push8_eq (statusWithBreak s.p) s)

/-- PLA is a pull of one byte to A, with Z and N from it (R166). -/
theorem exec_pla (s : State) : ∃ p', exec .pla s = .next { s with
      a := s.ram.read (256 + (s.sp + 1#8).toNat), sp := s.sp + 1#8, p := p' }
    ∧ setsZN s.p p' (s.ram.read (256 + (s.sp + 1#8).toNat)) := by
  obtain ⟨p', hp', hset⟩ := setReg_setZN_spec (s.setSP (s.sp + 1#8)) (s.ram.read (256 + (s.sp + 1#8).toNat))
  refine ⟨p', exec_eq_next.2 ?_, hp'⟩
  change (pull8 s).bind _ = _
  rw [pull8_eq, Res.bind_ok]
  exact congrArg (Res.ok ()) (hset .a)

theorem exec_plp (s : State) : exec .plp s = .next
    ((s.setSP (s.sp + 1#8)).setP (statusWithoutBreak (s.ram.read (256 + (s.sp + 1#8).toNat)))) := by
  refine exec_eq_next.2 ?_
  change (pull8 s).bind _ = _
  rw [pull8_eq, Res.bind_ok]

/-- Settles O38: pushes and pulls never fault, and PHP and PLP pass P through the byte with its forced bits. -/
theorem pushAndPullInstructions : Obligations.PushAndPullInstructions := by
  intro s
  obtain ⟨p', hpla, hp'⟩ := exec_pla s
  exact ⟨exec_pha s, ⟨_, p', rfl, hpla, hp'⟩, ⟨_, exec_php s, flagsSet_statusWithBreak s.p⟩,
    ⟨_, exec_plp s, flagsSet_statusWithoutBreak _⟩, rfl, rfl⟩

/-! ## Flag instructions and NOP (R169 to R176) -/

/-- An instruction whose rule writes one flag changes P alone, in it that flag alone. -/
theorem exec_setFlag {i : Instr} {f : Flag} {v : Bool} {s : State} (hrun : runOp (opOf i) s = .ok () (s.setFlag f v)) :
    ∃ p', exec i s = .next { s with p := p' } ∧ flagsSet s.p p' [(f, v)] :=
  ⟨(s.setFlag f v).p, exec_eq_next.2 hrun, (flagsSet_nil s.p).setFlag f v⟩

/-- Settles O39: each of the seven rules is the write of its listed flag; NOP's writes nothing. -/
theorem flagInstructionsAndNop : Obligations.FlagInstructionsAndNop := by
  refine fun s => ⟨fun i f v hi => exec_setFlag ?_, rfl, rfl, rfl⟩
  fin_cases hi <;> rfl

/-! ## BRK and RTI (R185, R186, R217) -/

theorem exec_brk (s : State) :
    exec .brk s = .next (s.interrupted (s.pc + 1#16) (statusWithBreak s.p) brkVector 0) :=
  exec_eq_next.2 (softwareTrap_eq s)

/-- Settles O40: the entry through $FFFE, with no dot added and I the one flag of P written. -/
theorem brkTakesTheTrap : Obligations.BrkTakesTheTrap := fun s =>
  ⟨_, _, exec_brk s, flagsSet_statusWithBreak s.p, (flagsSet_nil s.p).setFlag .interruptDisable true, rfl, rfl⟩

theorem exec_rti (s : State) : exec .rti s = .next
    (((s.setP (statusWithoutBreak (s.ram.read (256 + (s.sp + 1#8).toNat)))).setSP (s.sp + 3#8)).setPC
      (word (s.ram.read (256 + (s.sp + 2#8).toNat)) (s.ram.read (256 + (s.sp + 3#8).toNat)))) :=
  exec_eq_next.2 (returnFromInterrupt_eq s)

/-- An entry through a vector leaves three bytes on the stack: the return address, high byte first, then the status (R216). -/
theorem State.interrupted_read {ret vector : Addr} {status : Byte} {dots : Nat} {s : State}
    (hw : s.ram.wf ramSize = true) :
    (s.interrupted ret status vector dots).ram.read (256 + s.sp.toNat) = hi ret
      ∧ (s.interrupted ret status vector dots).ram.read (256 + (s.sp - 1#8).toNat) = lo ret
      ∧ (s.interrupted ret status vector dots).ram.read (256 + (s.sp - 2#8).toNat) = status := by
  have hneHi : s.sp ≠ s.sp - 2#8 := by bv_omega
  have hneLo : s.sp - 1#8 ≠ s.sp - 2#8 := by bv_omega
  have hram : (s.interrupted ret status vector dots).ram =
    (s.pushed16 ret).ram.write (256 + (s.sp - 2#8).toNat) status := rfl
  have hwf : (s.pushed16 ret).ram.wf ramSize = true :=
    Memory.write_wf (Memory.write_wf hw (stackCell_lt _) _) (stackCell_lt _) _
  obtain ⟨hreadHi, hreadLo⟩ := State.pushed16_read (w := ret) hw
  rw [hram, Memory.read_write_of_ne _ _ (stackCell_ne hneHi), Memory.read_write_of_ne _ _ (stackCell_ne hneLo)]
  exact ⟨hreadHi, hreadLo, Memory.read_write_same hwf _ _⟩

/-- RTI with SP and the RAM as an entry through a vector left them goes to its return address, with the status byte it pushed
installed and SP as before the entry (R217). -/
theorem exec_rti_of_interrupted {ret vector : Addr} {status : Byte} {dots : Nat} {s u : State}
    (hw : s.ram.wf ramSize = true) (hsp : u.sp = (s.interrupted ret status vector dots).sp)
    (hram : u.ram = (s.interrupted ret status vector dots).ram) :
    exec .rti u = .next (((u.setP (statusWithoutBreak status)).setSP s.sp).setPC ret) := by
  have hstatus : s.sp - 3#8 + 1#8 = s.sp - 2#8 := by bv_omega
  have hlo : s.sp - 3#8 + 2#8 = s.sp - 1#8 := by bv_omega
  have hhi : s.sp - 3#8 + 3#8 = s.sp := by bv_omega
  obtain ⟨hreadHi, hreadLo, hreadStatus⟩ := State.interrupted_read (ret := ret) (vector := vector) (status := status)
    (dots := dots) hw
  rw [exec_rti, hsp, hram, State.interrupted_sp, hstatus, hlo, hhi, hreadHi, hreadLo, hreadStatus, word_lo_hi]

/-- Settles O41: after a BRK the stack holds its address plus 2 and P, which loses nothing but the forced bits. -/
theorem rtiReturns : Obligations.RtiReturns := by
  refine fun s => ⟨⟨_, exec_rti s, flagsSet_statusWithoutBreak _⟩, fun hw hbits t u ht hsp hram => ?_, rfl, rfl⟩
  cases (exec_brk s).symm.trans ht
  rw [exec_rti_of_interrupted hw hsp hram, statusWithoutBreak_statusWithBreak hbits]
  rfl

end Sys2Proof.Machine
end

section
/-! PROOFS. The step of a faulted machine and the NMI service (60_exceptions R203, R210). -/

namespace Sys2Proof.Machine

/-- Settles O6: each driver step of a faulted machine leaves it as it is. -/
theorem faultedMachineIsStuck : Obligations.FaultedMachineIsStuck := by
  intro s f hf
  obtain ⟨hstep, hdriver⟩ := step_driverStep_of_fault hf
  refine ⟨hstep, fun n => ?_⟩
  induction n with
  | zero => rfl
  | succ n ih => rw [driverRun, hdriver, ih]

/-- The state with no interrupt pending. -/
def State.nmiCleared (s : State) : State := { s with ppu := { s.ppu with nmiPending := false } }

/-- With an interrupt pending and no fault recorded, the step is the entry through $FFFA (R210). -/
theorem step_eq_nmi {s : State} (hf : s.fault = none) (hn : s.ppu.nmiPending = true) : step s =
    .next (s.nmiCleared.interrupted s.pc (statusWithoutBreak s.p) nmiVector s.cfg.nmiExtraDots) := by
  have hstep : step s = (nmiService s).outcome := by simp [step, hf, hn]
  rw [hstep, nmiService_eq]
  rfl

/-- An entry through a vector changes no cell but the three it pushes to (R216). -/
theorem State.interrupted_read_of_ne {ret vector : Addr} {status : Byte} {dots k : Nat} {s : State}
    (h0 : k ≠ 256 + s.sp.toNat) (h1 : k ≠ 256 + (s.sp - 1#8).toNat) (h2 : k ≠ 256 + (s.sp - 2#8).toNat) :
    (s.interrupted ret status vector dots).ram.read k = s.ram.read k := by
  rw [State.interrupted_ram, Memory.read_write_of_ne _ _ h2, Memory.read_write_of_ne _ _ h1,
    Memory.read_write_of_ne _ _ h0]

/-- Settles O7: the entry through $FFFA, which writes the three cells it pushes to and of P the flag I alone. -/
theorem nmiServiceStep : Obligations.NmiServiceStep := by
  intro s hf hn hw
  obtain ⟨hreadHi, hreadLo, hreadStatus⟩ := State.interrupted_read (s := s.nmiCleared) (ret := s.pc)
    (status := statusWithoutBreak s.p) (vector := nmiVector) (dots := s.cfg.nmiExtraDots) hw
  exact ⟨_, step_eq_nmi hf hn, rfl, rfl, hreadHi, hreadLo, hreadStatus,
    fun k h0 h1 h2 => State.interrupted_read_of_ne h0 h1 h2,
    (flagsSet_nil s.p).setFlag .interruptDisable true, rfl, rfl, rfl, rfl, rfl, rfl, rfl, hf⟩

end Sys2Proof.Machine
end

section
/-! PROOFS. The timing machine of the PPU (60_exceptions R230 to R232): where a dot leads in the frame, the two dots with an
event, and from these any number of dots. -/

namespace Sys2Proof.Machine

/-! ## One dot -/

/-- The counters in range (10_state R32). -/
def Ppu.inFrame (p : Ppu) : Prop := p.dot < 341 ∧ p.scanline < 262

/-- One dot moves the PPU one place through the frame of 89342 dots (R230). -/
theorem ppuDot_inFrame {p : Ppu} (hp : p.inFrame) :
    (ppuDot p).inFrame ∧ framePosition (ppuDot p) = (framePosition p + 1) % 89342 := by
  obtain ⟨hdot, hline⟩ := hp
  simp only [Ppu.inFrame, framePosition]
  rcases ppuDot_cases p with ⟨h1, e⟩ | ⟨h1, h2, e⟩ | ⟨h1, h2, e⟩ | ⟨h1, h2, h3, e⟩ <;> rw [e] <;>
    simp only [vblankStart, frameWrap, dotsPerLine, linesPerFrame, vblankLine] at * <;> omega

/-- The status bits after an event: VBlank as the event sets it, sprite-0 hit clear, the low six bits kept (R231, R232). -/
theorem getLsbD_eventStatus (b : Byte) (vblank : Bool) :
    (setBit (setBit b 7 vblank) 6 false).getLsbD 7 = vblank
      ∧ (setBit (setBit b 7 vblank) 6 false).getLsbD 6 = false
      ∧ ∀ k, k < 6 → (setBit (setBit b 7 vblank) 6 false).getLsbD k = b.getLsbD k := by
  have hbits (k : Nat) : (setBit (setBit b 7 vblank) 6 false).getLsbD k =
      if k = 6 then false else if k = 7 then vblank else b.getLsbD k := by
    rw [getLsbD_setBit _ _ _ _ (by decide), getLsbD_setBit _ _ _ _ (by decide)]
  refine ⟨hbits 7, hbits 6, fun k hk => ?_⟩
  rw [hbits, if_neg (by omega), if_neg (by omega)]

/-- Settles O56: a dot that ends no scanline has no event, and one that does has the event of the scanline it enters. -/
theorem timingEvents : Obligations.TimingEvents := by
  intro p hdot hline
  simp only [framePosition]
  rcases ppuDot_cases p with ⟨h1, e⟩ | ⟨h1, h2, e⟩ | ⟨h1, h2, e⟩ | ⟨h1, h2, h3, e⟩ <;> rw [e] <;> clear e <;>
    simp only [dotsPerLine, linesPerFrame, vblankLine] at *
  case inl | inr.inr.inr => exact ⟨by omega, by omega, fun _ _ => ⟨trivial, trivial⟩, fun _ _ => trivial⟩
  case inr.inl =>
    obtain ⟨hvblank, hhit, hlow⟩ := getLsbD_eventStatus p.status true
    exact ⟨fun _ => ⟨hvblank, hhit, rfl⟩, by omega, by omega, hlow⟩
  case inr.inr.inl =>
    obtain ⟨hvblank, hhit, hlow⟩ := getLsbD_eventStatus p.status false
    exact ⟨by omega, fun _ => ⟨hvblank, hhit, rfl, rfl, rfl⟩, by omega, hlow⟩

/-! ## Any number of dots -/

/-- Any number of dots moves the PPU as many places through the frame. -/
theorem ppuAdvance_inFrame (n : Nat) {p : Ppu} (hp : p.inFrame) :
    (ppuAdvance n p).inFrame ∧ framePosition (ppuAdvance n p) = (framePosition p + n) % 89342 := by
  induction n generalizing p with
  | zero =>
    obtain ⟨hdot, hline⟩ := hp
    refine ⟨⟨hdot, hline⟩, ?_⟩
    simp only [ppuAdvance_zero, framePosition, dotsPerLine]
    omega
  | succ n ih =>
    obtain ⟨hdot, hpos⟩ := ppuDot_inFrame hp
    obtain ⟨hn, hposn⟩ := ih hdot
    exact ⟨hn, by rw [ppuAdvance_succ, hposn, hpos]; omega⟩

/-- What the timing machine leaves of the registers and memories, as one equation. -/
theorem Ppu.sameRegisters.eq_update {p q : Ppu} (h : p.sameRegisters q) :
    q = { p with dot := q.dot, scanline := q.scanline, status := q.status, nmiPending := q.nmiPending } := by
  obtain ⟨h1, h2, h3, h4, h5, h6, h7, h8, h9, h10, h11⟩ := h
  rw [← h1, ← h2, ← h3, ← h4, ← h5, ← h6, ← h7, ← h8, ← h9, ← h10, ← h11]

/-- Settles O55: the position by induction on the dots, the frame from what no dot writes. -/
theorem advanceMovesThroughFrame : Obligations.AdvanceMovesThroughFrame := by
  intro n p hdot hline
  obtain ⟨⟨hdot', hline'⟩, hpos⟩ := ppuAdvance_inFrame n ⟨hdot, hline⟩
  exact ⟨hpos, hdot', hline', (ppuAdvance_sameRegisters n p).eq_update⟩

/-- Advancing by one dot more is one dot after the others. -/
theorem ppuAdvance_succ_last (n : Nat) (p : Ppu) : ppuAdvance (n + 1) p = ppuDot (ppuAdvance n p) :=
  ppuAdvance_add n 1 p

/-- Settles O57: by induction on the dots, each dot having the event of its place in the frame. -/
theorem oneVBlankPerFrame : Obligations.OneVBlankPerFrame := by
  intro p n hdot hline hstatus hnmi hn
  induction n with
  | zero =>
    rw [ppuAdvance_zero, hstatus, hnmi]
    simp
  | succ n ih =>
    obtain ⟨ihStatus, ihNmi⟩ := ih (by omega)
    obtain ⟨⟨hdot', hline'⟩, hpos⟩ := ppuAdvance_inFrame n (p := p) ⟨by omega, by omega⟩
    have hplace : framePosition (ppuAdvance n p) = n := by
      rw [hpos, framePosition, hdot, hline]
      omega
    have hctrl : (ppuAdvance n p).ctrl = p.ctrl := (ppuAdvance_sameRegisters n p).1
    obtain ⟨hvblank, hwrap, hother, -⟩ := timingEvents (ppuAdvance n p) hdot' hline'
    rw [hplace] at hvblank hwrap hother
    rw [ppuAdvance_succ_last]
    by_cases h1 : n + 1 = 241 * 341
    · obtain ⟨hs, -, hp⟩ := hvblank h1
      have hbefore : ¬(82181 ≤ n ∧ n < 89342) := by omega
      have hin : 82181 ≤ n + 1 ∧ n + 1 < 89342 := by omega
      rw [hs, hp, ihNmi, hctrl, decide_eq_false hbefore, decide_eq_true hin]
      simp
    · by_cases h2 : n + 1 = 262 * 341
      · obtain ⟨hs, -, hp, -⟩ := hwrap h2
        have hout : ¬(82181 ≤ n + 1 ∧ n + 1 < 89342) := by omega
        rw [hs, hp, decide_eq_false hout]
        simp
      · obtain ⟨hs, hp⟩ := hother h1 h2
        have hsame : (82181 ≤ n ∧ n < 89342) ↔ (82181 ≤ n + 1 ∧ n + 1 < 89342) := by omega
        rw [hs, hp, ihStatus, ihNmi, decide_eq_decide.2 hsame]
        exact ⟨rfl, rfl⟩

end Sys2Proof.Machine
end

section
/-! PROOFS. The register ports of the PPU (60_exceptions R240 to R253): the port of a bus address, the addresses of ports 6 and
7 as numbers, and what an access to each port does. -/

namespace Sys2Proof.Machine

/-! ## The port of a bus address (20_memory R47) -/

theorem toNat_portOf (a : Addr) : (portOf a).toNat = a.toNat % 8 := BitVec.toNat_setWidth 3 a

theorem busRead_portOf {a : Addr} {k : Nat} (s : State) (h1 : 0x2000 ≤ a.toNat) (h2 : a.toNat ≤ 0x3FFF)
    (hk : a.toNat % 8 = k) : busRead a s = ppuPortRead (BitVec.ofNat 3 k) s := by
  rw [busRead_port s h1 h2, portOf_of_mod hk]

theorem busWrite_portOf {a : Addr} {k : Nat} (v : Byte) (s : State) (h1 : 0x2000 ≤ a.toNat) (h2 : a.toNat ≤ 0x3FFF)
    (hk : a.toNat % 8 = k) : busWrite a v s = ppuPortWrite (BitVec.ofNat 3 k) v s := by
  rw [busWrite_port v s h1 h2, portOf_of_mod hk]

/-- The ports but 2, 4 and 7 reject reads (R253). -/
theorem ppuPortRead_rejected {port : BitVec 3} (s : State) (h2 : port ≠ 2#3) (h4 : port ≠ 4#3) (h7 : port ≠ 7#3) :
    ppuPortRead port s = .fault (.registerAccessViolation .read port) s := by
  simp [ppuPortRead, h2, h4, h7]

/-- Settles O15: the rejected accesses are decided by the port, which is the address modulo 8. -/
theorem rejectedPortAccesses : Obligations.RejectedPortAccesses := by
  intro a v s h1 h2
  refine ⟨fun hk => ?_, fun hk => ?_⟩
  · rw [busRead_portOf s h1 h2 rfl]
    generalize a.toNat % 8 = k at hk
    apply ppuPortRead_rejected <;> fin_cases hk <;> decide
  · rw [busWrite_portOf v s h1 h2 hk, ppuPortWrite_status]

/-! ## Ports 0 to 6 (R241 to R247) -/

/-- Clearing VBlank keeps the low seven bits (R243). -/
theorem toNat_setBit_seven_false (b : Byte) : (setBit b 7 false).toNat = b.toNat % 128 := by
  have hmask : setBit b 7 false = b &&& 0x7F#8 := rfl
  rw [hmask, BitVec.toNat_and]
  exact Nat.and_two_pow_sub_one_eq_mod b.toNat 7

/-- The first write to port 6 gives the high six bits of the VRAM address (R247). -/
theorem toNat_vramAddr_high (va : BitVec 14) (v : Byte) :
    (((v &&& 0x3F#8).setWidth 14 <<< 8) ||| (va &&& 0x00FF#14)).toNat = v.toNat % 64 * 256 + va.toNat % 256 := by
  have hv : (v &&& 0x3F#8).toNat = v.toNat % 64 := by
    rw [BitVec.toNat_and]
    exact Nat.and_two_pow_sub_one_eq_mod v.toNat 6
  have hva : (va &&& 0x00FF#14).toNat = va.toNat % 256 := by
    rw [BitVec.toNat_and]
    exact Nat.and_two_pow_sub_one_eq_mod va.toNat 8
  have hlow : va.toNat % 256 < 2 ^ 8 := Nat.mod_lt _ (by decide)
  rw [BitVec.toNat_or, BitVec.toNat_shiftLeft, BitVec.toNat_setWidth, hv, hva]
  rw [Nat.mod_eq_of_lt (a := v.toNat % 64) (by omega), Nat.shiftLeft_eq, Nat.mod_eq_of_lt (a := _ * _) (by omega),
    ← Nat.shiftLeft_eq, ← Nat.shiftLeft_add_eq_or_of_lt hlow, Nat.shiftLeft_eq]

/-- The second write to port 6 gives the low eight bits of the VRAM address (R247). -/
theorem toNat_vramAddr_low (va : BitVec 14) (v : Byte) :
    ((va &&& 0x3F00#14) ||| v.setWidth 14).toNat = va.toNat / 256 * 256 + v.toNat := by
  have hhigh : va &&& 0x3F00#14 = (va >>> 8) <<< 8 := by
    ext i hi
    interval_cases i <;> simp
  have hlow : v.toNat < 2 ^ 8 := v.isLt
  have := va.isLt
  rw [hhigh, BitVec.toNat_or, BitVec.toNat_shiftLeft, BitVec.toNat_ushiftRight, BitVec.toNat_setWidth,
    Nat.mod_eq_of_lt (a := v.toNat) (by omega), Nat.shiftRight_eq_div_pow, Nat.shiftLeft_eq,
    Nat.mod_eq_of_lt (a := _ * _) (by omega),
    ← Nat.shiftLeft_eq, ← Nat.shiftLeft_add_eq_or_of_lt hlow, Nat.shiftLeft_eq]

/-- What a write to port 6 leaves, the address as a number (R247). -/
theorem writeVramAddr_spec (v : Byte) (p : Ppu) : ∃ va : BitVec 14,
    writeVramAddr v p = { p with vramAddr := va, w := !p.w }
    ∧ va.toNat = if p.w then p.vramAddr.toNat / 256 * 256 + v.toNat
        else v.toNat % 64 * 256 + p.vramAddr.toNat % 256 := by
  unfold writeVramAddr
  cases hw : p.w with
  | true => exact ⟨_, rfl, toNat_vramAddr_low p.vramAddr v⟩
  | false => exact ⟨_, rfl, toNat_vramAddr_high p.vramAddr v⟩

/-- Settles O59: the port decides the register, and each port's rule is the update stated. -/
theorem registerPorts : Obligations.RegisterPorts := by
  intro a v s h1 h2
  refine ⟨busWrite_portOf v s h1 h2, busWrite_portOf v s h1 h2,
    fun hk => ⟨_, busRead_portOf s h1 h2 hk, toNat_setBit_seven_false s.ppu.status⟩, busWrite_portOf v s h1 h2,
    fun hk => ⟨busRead_portOf s h1 h2 hk, busWrite_portOf v s h1 h2 hk⟩, busWrite_portOf v s h1 h2, fun hk => ?_⟩
  obtain ⟨va, hwrite, hva⟩ := writeVramAddr_spec v s.ppu
  exact ⟨va, hwrite ▸ busWrite_portOf v s h1 h2 hk, hva⟩

/-! ## Port 7 (R248 to R252) -/

/-- The increment of the VRAM address, modulo $4000 (R249). -/
theorem toNat_incVramAddr (p : Ppu) :
    (incVramAddr p).vramAddr.toNat = (p.vramAddr.toNat + (if p.ctrl.getLsbD 2 then 32 else 1)) % 0x4000 := by
  simp only [incVramAddr, BitVec.toNat_add]
  split <;> rfl

/-- The folding keeps the position in the four nametables, and drops the mirror of $2000-$2EFF at $3000 (R252). -/
theorem toNat_and_nametables {va : BitVec 14} (h : 0x2000 ≤ va.toNat) :
    (va &&& 0x2FFF#14).toNat = 0x2000 + va.toNat % 0x1000 := by
  have := va.isLt
  have hlow : (va.toNat &&& 0x2FFF) % 2 ^ 12 = va.toNat % 2 ^ 12 := by
    rw [Nat.and_mod_two_pow]
    exact (Nat.and_two_pow_sub_one_eq_mod _ 12).trans (Nat.mod_mod _ _)
  have hhigh : (va.toNat &&& 0x2FFF) / 2 ^ 12 = 2 := by
    rw [Nat.and_div_two_pow]
    have hq : va.toNat / 2 ^ 12 = 2 ∨ va.toNat / 2 ^ 12 = 3 := by omega
    rcases hq with hq | hq <;> rw [hq] <;> rfl
  rw [BitVec.toNat_and]
  change va.toNat &&& 0x2FFF = _
  omega

/-- The nametable byte of a VRAM address, as a number (R252). -/
theorem ntIndex_eq (m : Mirroring) {va : BitVec 14} (h : 0x2000 ≤ va.toNat) :
    ntIndex m va = (match m with
      | .horizontal => va.toNat % 0x1000 / 0x800
      | .vertical => va.toNat % 0x1000 / 0x400 % 2) * 0x400 + va.toNat % 0x400 := by
  simp only [ntIndex, toNat_and_nametables h, Nat.add_sub_cancel_left]
  cases m <;> simp only <;> omega

/-- The palette byte of a VRAM address, as a number (R248). -/
theorem palIndex_eq {va : BitVec 14} (h : 0x3F00 ≤ va.toNat) : palIndex va = va.toNat % 32 := by
  rw [palIndex]
  omega

/-- A read of port 7 outside the palette gives the old buffer and refills it from CHR or a nametable (R250). -/
theorem ppuPortRead_data_buffered {s : State} (h : s.ppu.vramAddr.toNat ≤ 0x3EFF) : ppuPortRead 7#3 s =
    .ok s.ppu.readBuf { s with ppu :=
      { incVramAddr s.ppu with readBuf := ppuSpaceRead s.cart s.ppu s.ppu.vramAddr } } := by
  simp [ppuPortRead, dataReadValue, afterDataRead, h]

/-- A read of port 7 in the palette gives the byte itself (R250). -/
theorem ppuPortRead_data_palette {s : State} (h : 0x3F00 ≤ s.ppu.vramAddr.toNat) : ppuPortRead 7#3 s =
    .ok (s.ppu.pal.read (palIndex s.ppu.vramAddr)) { s with ppu := incVramAddr s.ppu } := by
  have h1 : ¬s.ppu.vramAddr.toNat ≤ 0x1FFF := by omega
  have h2 : ¬s.ppu.vramAddr.toNat ≤ 0x3EFF := by omega
  simp [ppuPortRead, dataReadValue, afterDataRead, ppuSpaceRead, h1, h2]

/-- A write to port 7 above CHR goes to VRAM or the palette (R251). -/
theorem ppuPortWrite_data {s : State} (v : Byte) (h : 0x2000 ≤ s.ppu.vramAddr.toNat) :
    ppuPortWrite 7#3 v s = .ok () { s with ppu := writeVramData s.cart v s.ppu } := by
  simp [ppuPortWrite, show ¬s.ppu.vramAddr.toNat ≤ 0x1FFF by omega]

/-- Settles O60: the region of the VRAM address decides the access, and the increment is the same in each. -/
theorem dataPort : Obligations.DataPort := by
  intro a v s h1 h2 hk
  dsimp only
  refine ⟨(incVramAddr s.ppu).vramAddr, toNat_incVramAddr s.ppu, _, rfl, fun hva => ⟨?_, ?_⟩, fun hlow hhigh => ⟨?_, ?_⟩,
    fun hva => ⟨?_, ?_⟩⟩
  · have hbelow : s.ppu.vramAddr.toNat ≤ 0x3EFF := by omega
    rw [busRead_portOf s h1 h2 hk, ppuPortRead_data_buffered hbelow, ppuSpaceRead, if_pos hva]
    rfl
  · rw [busWrite_portOf v s h1 h2 hk, ppuPortWrite_chr v hva, ← BitVec.ofNat_toNat]
    rfl
  · have hchr : ¬s.ppu.vramAddr.toNat ≤ 0x1FFF := by omega
    rw [busRead_portOf s h1 h2 hk, ppuPortRead_data_buffered hhigh, ppuSpaceRead, if_neg hchr, if_pos hhigh,
      ntIndex_eq _ hlow]
    rfl
  · rw [busWrite_portOf v s h1 h2 hk, ppuPortWrite_data v hlow, writeVramData, if_pos hhigh, ntIndex_eq _ hlow]
    rfl
  · rw [busRead_portOf s h1 h2 hk, ppuPortRead_data_palette hva, palIndex_eq hva]
    rfl
  · have hpal : ¬s.ppu.vramAddr.toNat ≤ 0x3EFF := by omega
    have hchr : 0x2000 ≤ s.ppu.vramAddr.toNat := by omega
    rw [busWrite_portOf v s h1 h2 hk, ppuPortWrite_data v hchr, writeVramData, if_neg hpal, palIndex_eq hva]
    rfl

end Sys2Proof.Machine
end

section
/-! PROOFS. The sources of the NMI (60_exceptions R212): of all a bus access can do, one port write raises the pending flag, and
of all a dot can do, one event. -/

namespace Sys2Proof.Machine

/-! ## Bus accesses -/

/-- No bus read touches the pending flag (R243, R250). -/
theorem busRead_nmiPending {a : Addr} {s t : State} {v : Byte} (h : busRead a s = .ok v t) :
    t.ppu.nmiPending = s.ppu.nmiPending := by
  rw [busRead_eqButReadRegisters h]

/-- No OAM-DMA touches the pending flag (20_memory R50). -/
theorem oamCopy_nmiPending {base : Addr} {is : List Nat} {s t : State} {u : Unit} (h : oamCopy base is s = .ok u t) :
    t.ppu.nmiPending = s.ppu.nmiPending := by
  induction is generalizing s with
  | nil => cases h; rfl
  | cons i is ih =>
    obtain ⟨b, s1, hread, hrest⟩ := Res.bind_eq_ok.1 h
    have hkept : s1.ppu.nmiPending = s.ppu.nmiPending := busRead_nmiPending hread
    exact (ih hrest).trans hkept

/-- The pending flag is written by port 0 alone (R241). -/
theorem ppuPortWrite_nmiPending {port : BitVec 3} {v : Byte} {s t : State} {u : Unit}
    (h : ppuPortWrite port v s = .ok u t) (hport : port ≠ 0#3) : t.ppu.nmiPending = s.ppu.nmiPending := by
  rcases ppuPortWrite_ok h with
    ⟨h0, -⟩ | ⟨-, rfl⟩ | ⟨-, rfl⟩ | ⟨-, rfl⟩ | ⟨-, rfl⟩ | ⟨-, rfl⟩ | ⟨-, -, rfl⟩
  · exact absurd h0 hport
  · rfl
  · rfl
  · rfl
  · simp only [writeScroll]; split <;> rfl
  · simp only [writeVramAddr]; split <;> rfl
  · simp only [writeVramData]; split <;> rfl

/-- A bus write that raises the NMI is a write to port 0 that turns the enable bit on during VBlank (R241). -/
theorem busWrite_raises_nmi {a : Addr} {v : Byte} {s t : State} {u : Unit} (h : busWrite a v s = .ok u t)
    (hs : s.ppu.nmiPending = false) (ht : t.ppu.nmiPending = true) :
    0x2000 ≤ a.toNat ∧ a.toNat ≤ 0x3FFF ∧ a.toNat % 8 = 0
      ∧ s.ppu.ctrl.getLsbD 7 = false ∧ t.ppu.ctrl.getLsbD 7 = true ∧ s.ppu.status.getLsbD 7 = true := by
  have hraised : t.ppu.nmiPending ≠ s.ppu.nmiPending := by rw [hs, ht]; decide
  rcases busWrite_ok h with ⟨-, rfl⟩ | ⟨h1, h2, hwrite⟩ | ⟨-, hdma⟩ | ⟨-, -, -, -, rfl⟩
  · exact absurd rfl hraised
  · have hport : portOf a = 0#3 := not_imp_comm.1 (ppuPortWrite_nmiPending hwrite) hraised
    refine ⟨h1, h2, by rw [← toNat_portOf, hport]; rfl, ?_⟩
    rw [hport] at hwrite
    cases hwrite
    simpa [writeCtrl, hs, and_assoc] using ht
  · obtain ⟨_, s1, hcopy, hend⟩ := Res.bind_eq_ok.1 hdma
    cases hend
    exact absurd (oamCopy_nmiPending hcopy) hraised
  · exact absurd rfl hraised

/-! ## Instructions and dots -/

/-- A read-modify-write never raises the NMI: at port 0 its read is rejected (R253). -/
theorem runOp_modify_nmiPending {op : Op} {m : MemOperand} {s t : State} (hop : modifyOf op = some m)
    (h : runOp op s = .ok () t) (hs : s.ppu.nmiPending = false) : t.ppu.nmiPending = false := by
  obtain ⟨v, s1, w, s2, hread, hwrite, ht⟩ := runOp_modify_ok hop h
  have hs1 : s1.ppu.nmiPending = false := (busRead_nmiPending hread).trans hs
  rw [ht]
  refine Bool.eq_false_iff.2 fun hraised => ?_
  obtain ⟨h1, h2, h0, -⟩ := busWrite_raises_nmi hwrite hs1 hraised
  rw [busRead_portOf s h1 h2 h0, ppuPortRead_rejected s (by decide) (by decide) (by decide)] at hread
  cases hread

/-- The dot that raises the NMI enters scanline 241 with the NMI enabled (R231). -/
theorem ppuDot_raises_nmi {p : Ppu} (hp : p.nmiPending = false) (h : (ppuDot p).nmiPending = true) :
    p.ctrl.getLsbD 7 = true ∧ (ppuDot p).scanline = 241 ∧ (ppuDot p).dot = 0 := by
  rcases ppuDot_cases p with ⟨-, e⟩ | ⟨-, hline, e⟩ | ⟨-, -, e⟩ | ⟨-, -, -, e⟩ <;> rw [e] at h ⊢
  · exact absurd (hp.symm.trans h) Bool.false_ne_true
  · exact ⟨by simpa [vblankStart, hp] using h, hline, rfl⟩
  · exact absurd h Bool.false_ne_true
  · exact absurd (hp.symm.trans h) Bool.false_ne_true

/-- Settles O58: a store is one bus write, and no other instruction raises the flag. -/
theorem nmiSources : Obligations.NmiSources := by
  refine ⟨fun i s t h hs ht => ?_, fun p hp h => ppuDot_raises_nmi hp h⟩
  have hrun := exec_eq_next.1 h
  cases hstore : storeOf (opOf i) with
  | some rm =>
    obtain ⟨r, m⟩ := rm
    rw [runOp_store hstore] at hrun
    exact ⟨r, m, rfl, busWrite_raises_nmi hrun hs ht⟩
  | none =>
    have hkept : t.ppu.nmiPending = false := by
      cases hmodify : modifyOf (opOf i) with
      | some m => exact runOp_modify_nmiPending hmodify hrun hs
      | none => rw [runOp_eqButReadRegisters hstore hmodify hrun, hs]
    exact absurd (hkept.symm.trans ht) Bool.false_ne_true

end Sys2Proof.Machine
end

section
/-! PROOFS. Reset and the loader (70_reset_and_hazards R262, R270 to R273): where PRG holds the reset vector, which images the
loader accepts, and the cartridge it builds of one. -/

namespace Sys2Proof.Machine

/-! ## The reset vector (R262) -/

/-- Both image sizes hold what is at the top of the address space at the end of PRG (R48). -/
theorem prgOffset_of_toNat_eq_sub (size : PrgSize) {a : Addr} {k : Nat} (h1 : 1 ≤ k) (hk : k ≤ 16384)
    (ha : a.toNat = 65536 - k) : prgOffset size a = prgBytes size - k := by
  cases size <;> simp only [prgOffset, prgBytes, ha] <;> omega

/-- Settles O9: `$FFFC` and `$FFFD` are the bytes 4 and 3 before the end of PRG, and the vector is read as the bus reads. -/
theorem resetLoadsPcFromVector : Obligations.ResetLoadsPcFromVector := by
  intro r
  have hlow : prgOffset r.cart.prgSize resetVector = prgBytes r.cart.prgSize - 4 :=
    prgOffset_of_toNat_eq_sub _ (by decide) (by decide) (by decide)
  have hhigh : prgOffset r.cart.prgSize (resetVector + 1#16) = prgBytes r.cart.prgSize - 3 :=
    prgOffset_of_toNat_eq_sub _ (by decide) (by decide) (by decide)
  refine ⟨?_, resetFrom_pc (State.resetFrom r), rfl⟩
  rw [← hlow, ← hhigh]
  rfl

/-! ## The header (R270, R271) -/

/-- The magic is in the image itself: no byte of it is the 0 read past the image's end. -/
theorem hasMagic_iff (image : List Byte) : hasMagic image = true ↔ image.take 4 = [0x4E#8, 0x45#8, 0x53#8, 0x1A#8] := by
  rcases image with _ | ⟨a, _ | ⟨b, _ | ⟨c, _ | ⟨d, rest⟩⟩⟩⟩ <;> simp [hasMagic, imageByte, and_assoc]

/-- The header gives a PRG size where its units count that many bytes (R270, R271). -/
theorem headerPrgSize_eq_some {image : List Byte} {size : PrgSize} :
    headerPrgSize image = some size ↔ prgBytes size = 16384 * (imageByte image 4).toNat := by
  unfold headerPrgSize
  split
  case isTrue h => cases size <;> simp [h, prgBytes]
  case isFalse h1 =>
    split
    case isTrue h => cases size <;> simp [h, prgBytes]
    case isFalse h2 => cases size <;> simp only [prgBytes, reduceCtorEq, false_iff] <;> bv_omega

/-- PRG has a size where the header gives one or two units. -/
theorem exists_prgBytes_eq (b : Byte) : (∃ size, prgBytes size = 16384 * b.toNat) ↔ b.toNat = 1 ∨ b.toNat = 2 := by
  constructor
  · rintro ⟨size, h⟩
    cases size <;> simp only [prgBytes] at h <;> omega
  · rintro (h | h)
    · exact ⟨.k16, by rw [h]; rfl⟩
    · exact ⟨.k32, by rw [h]; rfl⟩

/-! ## What the loader builds (R271 to R273) -/

/-- The cartridge of an accepted image whose PRG has this size (R272, R273). -/
def imageCartridge (image : List Byte) (size : PrgSize) : Cartridge where
  prgSize := size
  prg := Memory.ofBytes ((image.drop (prgStart image)).take (prgBytes size))
  chr := Memory.ofBytes ((image.drop (prgStart image + prgBytes size)).take 8192)
  mirroring := headerMirroring image

/-- A refusal in front lets through what it does not refuse. -/
theorem ite_error_eq_ok {ε α : Type} {p : Prop} [Decidable p] {e : ε} {r : Except ε α} {v : α} :
    (if p then .error e else r) = .ok v ↔ ¬p ∧ r = .ok v := by
  split <;> simp [*]

/-- The loader accepts an image exactly where no cause of R271 holds, and its cartridge is then the slices of R272. -/
theorem loadCartridge_eq_ok {image : List Byte} {c : Cartridge} : loadCartridge image = .ok c ↔
    hasMagic image = true ∧ (imageByte image 7 >>> 2) &&& 3#8 = 0#8 ∧ mapperNumber image = 0#8
    ∧ (imageByte image 6).getLsbD 3 = false ∧ imageByte image 5 = 1#8
    ∧ ∃ size, headerPrgSize image = some size ∧ prgStart image + prgBytes size + 8192 ≤ image.length
      ∧ c = imageCartridge image size := by
  simp only [loadCartridge, ite_error_eq_ok]
  cases headerPrgSize image with
  | none => simp
  | some size => simp [ite_error_eq_ok, imageCartridge, eq_comm (a := c)]

/-- A result is an error where it is no value: a refused image is one of which no cartridge is built. -/
theorem exists_error_iff {ε α : Type} (r : Except ε α) : (∃ e, r = .error e) ↔ ¬∃ v, r = .ok v := by
  cases r <;> simp

/-- An image is accepted exactly where its magic, version, mapper number, units, four-screen bit and length all are as
R271 asks. -/
theorem exists_loadCartridge_eq_ok (image : List Byte) : (∃ c, loadCartridge image = .ok c) ↔
    image.take 4 = [0x4E#8, 0x45#8, 0x53#8, 0x1A#8] ∧ (imageByte image 7 >>> 2) &&& 3#8 = 0#8 ∧ mapperNumber image = 0#8
    ∧ ((imageByte image 4).toNat = 1 ∨ (imageByte image 4).toNat = 2) ∧ (imageByte image 5).toNat = 1
    ∧ (imageByte image 6).getLsbD 3 = false
    ∧ prgStart image + 16384 * (imageByte image 4).toNat + 8192 * (imageByte image 5).toNat ≤ image.length := by
  have hunits : imageByte image 5 = 1#8 ↔ (imageByte image 5).toNat = 1 := BitVec.toNat_inj.symm
  simp only [loadCartridge_eq_ok, hasMagic_iff, headerPrgSize_eq_some, hunits, ← exists_prgBytes_eq]
  constructor
  · rintro ⟨_, hmagic, hversion, hmapper, hscreen, hchr, size, hsize, hlength, -⟩
    exact ⟨hmagic, hversion, hmapper, ⟨size, hsize⟩, hchr, hscreen, by omega⟩
  · rintro ⟨hmagic, hversion, hmapper, ⟨size, hsize⟩, hchr, hscreen, hlength⟩
    exact ⟨_, hmagic, hversion, hmapper, hscreen, hchr, size, hsize, by omega, rfl⟩

/-- The store of a slice reads as the image it is cut from. -/
theorem Memory.read_ofBytes_slice (image : List Byte) (start : Nat) {k n : Nat} (h : k < n) :
    (Memory.ofBytes ((image.drop start).take n)).read k = imageByte image (start + k) := by
  simp [Memory.read_ofBytes, imageByte, List.getElem?_take_of_lt h]

theorem imageCartridge_wf (image : List Byte) (size : PrgSize) : (imageCartridge image size).wf = true :=
  Bool.and_eq_true_iff.2 ⟨Memory.ofBytes_wf _ (List.length_take_le ..), Memory.ofBytes_wf _ (List.length_take_le ..)⟩

theorem headerMirroring_eq_vertical (image : List Byte) :
    headerMirroring image = .vertical ↔ (imageByte image 6).getLsbD 0 = true := by
  unfold headerMirroring
  cases (imageByte image 6).getLsbD 0 <;> decide

/-- Settles O12: an image is refused where it is not accepted, and the cartridge of an accepted one is its slices. -/
theorem loaderExtractsSlices : Obligations.LoaderExtractsSlices := by
  intro image start size
  refine ⟨?_, fun c hc => ?_⟩
  · rw [exists_error_iff, exists_loadCartridge_eq_ok]
    simp only [not_and_or, not_le, Bool.not_eq_false]
    rfl
  · obtain ⟨-, -, -, -, -, prgSize, hsize, -, rfl⟩ := loadCartridge_eq_ok.1 hc
    have hbytes : prgBytes prgSize = size := headerPrgSize_eq_some.1 hsize
    refine ⟨imageCartridge_wf image prgSize, hbytes, fun k hk => ?_, fun k hk => ?_, headerMirroring_eq_vertical image⟩
    · exact Memory.read_ofBytes_slice image start (hbytes ▸ hk)
    · rw [← hbytes]
      exact Memory.read_ofBytes_slice image (start + prgBytes prgSize) hk

end Sys2Proof.Machine
end
